-- ==== Sys2Proof/Word.lean ====
section
/-! DEFINITION. The words of the block: what spec/00_scope.md R7 treats as bit vectors. -/

namespace Sys2Proof

/-- A byte of the host streams, an opcode byte, the data of a PDI unit (20_memory.md R52). -/
abbrev Byte := BitVec 8

/-- A 9-bit PDI unit: bits [7:0] data, bit 8 parity (30_encoding.md R76). -/
abbrev Unit9 := BitVec 9

/-- A word of the 32-bit shift and capture registers (41_shift_register.md R130). -/
abbrev Word32 := BitVec 32

/-- A JTAG instruction code, `IR_WIDTH` = 4 bits (00_scope.md R6, 30_encoding.md R75). -/
abbrev IrCode := BitVec 4

end Sys2Proof
end

