-- ==== Sys2Proof/Config.lean ====
section
/-! DEFINITION. The parameters of 00_scope.md R6 and the one free value of the model. -/

namespace Sys2Proof.Config

/-- `N_RESET_HIGH`: high steps of the Reset sequence. The source says at least 5; decision D10 takes 5 (R147).
DESIGN CHOICE of the spec, entry 23. -/
def nResetHigh : Nat := 5

/-- `IDCODE_FILL`: what the Driver loads at CAPTURE-DR when PDICOM is not latched (41_shift_register.md R132,
decision D8). Entry 23. -/
def idcodeFill : Word32 := 0x00000000

/-- The data byte of `PDI_READ_FILL` = 0x000, sent in a read slot (42_tap_driver.md R153, decision D11). Entry 23. -/
def pdiReadFill : Byte := 0x00

/-- FREE VALUE: the TDO bit the target answers on the Driver's bus step number `n` when State holds no
supplied bit for it (20_memory.md R43: "no rule constrains it, and a model must admit every value on every
step"). No body: nothing can be proved of it. Entry 3. -/
opaque freeTdo : Nat → Bool

/-- The lookup tables of the Device-ID Decoder, the open parameters `JEDEC_TABLE` and `PART_TABLE`
(46_device_id.md R249). -/
structure IdTables where
  jedec : List (BitVec 11 × String)
  part : List (BitVec 16 × String)
  deriving DecidableEq, Repr

/-- The five illustrative entries the source gives (46_device_id.md R249). Entry 24. -/
def sourceTables : IdTables where
  jedec := [(0x01F, "Atmel")]
  part := [(0x9642, "ATXMega64A3U"), (0x9742, "ATXMega128A3U"), (0x9744, "ATXMega192A3U"),
    (0x9842, "ATXMega256A3U")]

end Sys2Proof.Config
end

