-- ==== Sys2Proof/Machine/Flags.lean ====
section
/-! DEFINITION. The one-bit verdicts of the block (10_state.md R37): the parity of a byte, the packing of a byte
into a unit, the check of a unit (41_shift_register.md R135, R136). `drv.complete` and `pdi.isNewCommand` are
computed where they are written (Machine/Ops.lean). -/

namespace Sys2Proof.Machine

open Sys2Proof

/-- `xor8(b)`, the XOR of the eight bits (00_scope.md R7). -/
def xor8 (b : Byte) : Bool :=
  b.getLsbD 0 ^^ b.getLsbD 1 ^^ b.getLsbD 2 ^^ b.getLsbD 3 ^^ b.getLsbD 4 ^^ b.getLsbD 5 ^^ b.getLsbD 6 ^^
    b.getLsbD 7

/-- `unit9(b) = xor8(b) ‖ b` (41_shift_register.md R135). -/
def unit9 (b : Byte) : Unit9 := BitVec.ofBool (xor8 b) ++ b

/-- `data(u) = u[7:0]` (R136). -/
def unitData (u : Unit9) : Byte := u.extractLsb' 0 8

/-- `parityOk(u) = (u[8] = xor8(u[7:0]))` (R136). -/
def parityOk (u : Unit9) : Bool := u.getLsbD 8 == xor8 (unitData u)

end Sys2Proof.Machine
end

