-- ==== Sys2Proof/Syntax.lean ====
section
/-! DEFINITION. The syntax: the TAP state names, the four formats, and one constructor of `Instr` per row of
spec/opcode_table.json (30_encoding.md R65 to R82). -/

namespace Sys2Proof

/-- The sixteen TAP states (10_state.md R11), in the order of their numbers 0 to 15 (30_encoding.md R78). -/
inductive TapState where
  | reset | idle | selectDR | captureDR | shiftDR | exit1DR | pauseDR | exit2DR
  | updateDR | selectIR | captureIR | shiftIR | exit1IR | pauseIR | exit2IR | updateIR
  deriving DecidableEq, Repr

/-- The four formats (30_encoding.md, table before R65). Position, not value, decides which one a word is read
in (20_memory.md R58). -/
inductive Format where
  /-- One header byte of the host command stream (R66). -/
  | hostHeader
  /-- One PDI opcode byte (R68). -/
  | pdiOpcode
  /-- A 4-bit JTAG instruction code (R75). -/
  | jtagIr
  /-- A 5-bit pair of TAP state number and decision bit (R78). -/
  | tapStep
  deriving DecidableEq, Repr

/-- An instruction: one constructor per row of spec/opcode_table.json. The spare bits of an opcode byte, which
decoding ignores, are operands because the byte is forwarded to the target unchanged
(45_command_adapter.md R225, 30_encoding.md R72 and R74). -/
inductive Instr where
  /-- `Reset`, header 0x1E (45_command_adapter.md R222). -/
  | hdrReset
  /-- `IDCode`, header 0x10 (R223). -/
  | hdrIdCode
  /-- `PDI`, header 0x11 (R224). -/
  | hdrPdi
  /-- `Error`, header 0x1F (R229). -/
  | hdrError
  /-- LDS (44_pdi_codec.md R184); `spare` is bit 4 of the byte. -/
  | lds (spare : Bool) (sizeA sizeB : Nat)
  /-- LD (R185); the pointer mode 1..4 stands in the sizeA field (30_encoding.md R70). -/
  | ld (spare : Bool) (mode sizeB : Nat)
  /-- STS (R186). -/
  | sts (spare : Bool) (sizeA sizeB : Nat)
  /-- ST (R187). -/
  | st (spare : Bool) (mode sizeB : Nat)
  /-- LDCS (R188). -/
  | ldcs (spare : Bool) (csAddr : Nat)
  /-- REPEAT (R189); `unused` is bits [3:2] of the byte (30_encoding.md R72). -/
  | rept (spare : Bool) (unused sizeB : Nat)
  /-- STCS (R190). -/
  | stcs (spare : Bool) (csAddr : Nat)
  /-- KEY (R191); `unused` is bits [3:0] of the byte (30_encoding.md R72). -/
  | key (spare : Bool) (unused : Nat)
  /-- IDCODE, code 0x3 (40_tap.md R125). -/
  | irIdcode
  /-- PDICOM, code 0x7 (R126). -/
  | irPdicom
  /-- BYPASS, code 0xF (R127). -/
  | irBypass
  -- the 32 TAP steps: current state and decision bit (40_tap.md R101 to R116)
  | resetTms0 | resetTms1
  | idleTms0 | idleTms1
  | selectDRTms0 | selectDRTms1
  | captureDRTms0 | captureDRTms1
  | shiftDRTms0 | shiftDRTms1
  | exit1DRTms0 | exit1DRTms1
  | pauseDRTms0 | pauseDRTms1
  | exit2DRTms0 | exit2DRTms1
  | updateDRTms0 | updateDRTms1
  | selectIRTms0 | selectIRTms1
  | captureIRTms0 | captureIRTms1
  | shiftIRTms0 | shiftIRTms1
  | exit1IRTms0 | exit1IRTms1
  | pauseIRTms0 | pauseIRTms1
  | exit2IRTms0 | exit2IRTms1
  | updateIRTms0 | updateIRTms1
  deriving DecidableEq, Repr

end Sys2Proof
end

