-- ==== Sys2Proof/WellFormed.lean ====
section
/-! DEFINITION. Which instructions are well formed: every operand in the range its field can hold. -/

namespace Sys2Proof

/-- A size or pointer mode is 1 to 4 (30_encoding.md R69, R70). -/
def sizeOk (n : Nat) : Bool := decide (1 ≤ n ∧ n ≤ 4)

/-- A control/status address is 0 to 15 (30_encoding.md R71). -/
def csAddrOk (n : Nat) : Bool := decide (n ≤ 15)

/-- Well-formedness of an instruction: its operands fit the fields of its format. -/
def Instr.wf : Instr → Bool
  | .lds _ a b => sizeOk a && sizeOk b
  | .ld _ m b => sizeOk m && sizeOk b
  | .sts _ a b => sizeOk a && sizeOk b
  | .st _ m b => sizeOk m && sizeOk b
  | .ldcs _ c => csAddrOk c
  | .rept _ u b => decide (u ≤ 3) && sizeOk b
  | .stcs _ c => csAddrOk c
  | .key _ u => decide (u ≤ 15)
  | _ => true

/-- The bits no documented producer sets are 0: bit 4 of every opcode byte, bits [3:2] of REPEAT, bits [3:0] of
KEY (93_implementation_defined.md U3, U4). Not part of `wf`: the block runs the other bytes too. -/
def Instr.documented : Instr → Bool
  | .lds x _ _ | .ld x _ _ | .sts x _ _ | .st x _ _ | .ldcs x _ | .stcs x _ => !x
  | .rept x u _ => !x && u == 0
  | .key x u => !x && u == 0
  | _ => true

end Sys2Proof
end

