-- ==== Sys2Proof/Decode.lean ====
section
/-! DEFINITION. The decoders of the four formats, total and rejecting by name, the encoder, and the reader of
table words (30_encoding.md R65 to R82). -/

namespace Sys2Proof

/-! ## Fields of an opcode byte (30_encoding.md R68 to R72) -/

/-- `opcodeByte[7:5]`. -/
def opField (b : Byte) : Nat := (b.extractLsb' 5 3).toNat

/-- Bit 4, which no decoder reads (R74). -/
def spareOf (b : Byte) : Bool := b.getLsbD 4

/-- `sizeA = opcodeByte[3:2] + 1` (R69). -/
def sizeAOf (b : Byte) : Nat := (b.extractLsb' 2 2).toNat + 1

/-- `sizeB = opcodeByte[1:0] + 1` (R69). -/
def sizeBOf (b : Byte) : Nat := (b.extractLsb' 0 2).toNat + 1

/-- `csAddr = opcodeByte[3:0]` (R71). -/
def csAddrOf (b : Byte) : Nat := (b.extractLsb' 0 4).toNat

/-! ## The decoders -/

/-- Why a word is no instruction of the table. -/
inductive DecodeReject where
  /-- A header byte other than the four assigned ones (30_encoding.md R79): consumed and ignored, R230. -/
  | unassignedHeader (b : Byte)
  /-- A JTAG code other than 0x3, 0x7, 0xF (R75): latched as it is, 40_tap.md R128. -/
  | unnamedCode (c : IrCode)
  /-- A word with a bit set above its format's width: no such word is on any interface. -/
  | tooWide (f : Format) (w : Byte)
  deriving DecidableEq, Repr

/-- A decoded word. -/
inductive Decoded where
  | instr (i : Instr)
  | rejected (r : DecodeReject)
  deriving DecidableEq, Repr

/-- The instruction, if the word is one. -/
def Decoded.toOption : Decoded → Option Instr
  | .instr i => some i
  | .rejected _ => none

/-- The header byte (30_encoding.md R67). -/
def decodeHeader (b : Byte) : Decoded :=
  if b = 0x1E then .instr .hdrReset
  else if b = 0x10 then .instr .hdrIdCode
  else if b = 0x11 then .instr .hdrPdi
  else if b = 0x1F then .instr .hdrError
  else .rejected (.unassignedHeader b)

/-- The PDI opcode byte: total, bit 4 not read (30_encoding.md R73, 44_pdi_codec.md R181). -/
def decodeOpcode (b : Byte) : Instr :=
  match opField b with
  | 0 => .lds (spareOf b) (sizeAOf b) (sizeBOf b)
  | 1 => .ld (spareOf b) (sizeAOf b) (sizeBOf b)
  | 2 => .sts (spareOf b) (sizeAOf b) (sizeBOf b)
  | 3 => .st (spareOf b) (sizeAOf b) (sizeBOf b)
  | 4 => .ldcs (spareOf b) (csAddrOf b)
  | 5 => .rept (spareOf b) (sizeAOf b - 1) (sizeBOf b)
  | 6 => .stcs (spareOf b) (csAddrOf b)
  | _ => .key (spareOf b) (csAddrOf b)

/-- The JTAG instruction code (30_encoding.md R75). -/
def decodeIr (c : IrCode) : Decoded :=
  if c = 0x3 then .instr .irIdcode
  else if c = 0x7 then .instr .irPdicom
  else if c = 0xF then .instr .irBypass
  else .rejected (.unnamedCode c)

/-- The number of a TAP state (10_state.md R11, decision D1). -/
def TapState.number : TapState → Nat
  | .reset => 0
  | .idle => 1
  | .selectDR => 2
  | .captureDR => 3
  | .shiftDR => 4
  | .exit1DR => 5
  | .pauseDR => 6
  | .exit2DR => 7
  | .updateDR => 8
  | .selectIR => 9
  | .captureIR => 10
  | .shiftIR => 11
  | .exit1IR => 12
  | .pauseIR => 13
  | .exit2IR => 14
  | .updateIR => 15

/-- The TAP state of a number (10_state.md R11); 15 and above give UPDATE-IR (a 4-bit number is at most 15). -/
def TapState.ofNumber : Nat → TapState
  | 0 => .reset
  | 1 => .idle
  | 2 => .selectDR
  | 3 => .captureDR
  | 4 => .shiftDR
  | 5 => .exit1DR
  | 6 => .pauseDR
  | 7 => .exit2DR
  | 8 => .updateDR
  | 9 => .selectIR
  | 10 => .captureIR
  | 11 => .shiftIR
  | 12 => .exit1IR
  | 13 => .pauseIR
  | 14 => .exit2IR
  | _ => .updateIR

/-- The row of the opcode table for a current state and a decision bit (40_tap.md R101 to R116). -/
def tapRow : TapState → Bool → Instr
  | .reset, false => .resetTms0
  | .reset, true => .resetTms1
  | .idle, false => .idleTms0
  | .idle, true => .idleTms1
  | .selectDR, false => .selectDRTms0
  | .selectDR, true => .selectDRTms1
  | .captureDR, false => .captureDRTms0
  | .captureDR, true => .captureDRTms1
  | .shiftDR, false => .shiftDRTms0
  | .shiftDR, true => .shiftDRTms1
  | .exit1DR, false => .exit1DRTms0
  | .exit1DR, true => .exit1DRTms1
  | .pauseDR, false => .pauseDRTms0
  | .pauseDR, true => .pauseDRTms1
  | .exit2DR, false => .exit2DRTms0
  | .exit2DR, true => .exit2DRTms1
  | .updateDR, false => .updateDRTms0
  | .updateDR, true => .updateDRTms1
  | .selectIR, false => .selectIRTms0
  | .selectIR, true => .selectIRTms1
  | .captureIR, false => .captureIRTms0
  | .captureIR, true => .captureIRTms1
  | .shiftIR, false => .shiftIRTms0
  | .shiftIR, true => .shiftIRTms1
  | .exit1IR, false => .exit1IRTms0
  | .exit1IR, true => .exit1IRTms1
  | .pauseIR, false => .pauseIRTms0
  | .pauseIR, true => .pauseIRTms1
  | .exit2IR, false => .exit2IRTms0
  | .exit2IR, true => .exit2IRTms1
  | .updateIR, false => .updateIRTms0
  | .updateIR, true => .updateIRTms1

/-- `stateNumber ‖ tms` (30_encoding.md R78). -/
def packTapStep (st : TapState) (tms : Bool) : BitVec 5 :=
  BitVec.ofNat 5 (2 * st.number + (if tms then 1 else 0))

/-- A TAP step word: total, all 32 patterns are assigned (30_encoding.md R78). -/
def decodeTapStep (w : BitVec 5) : Instr :=
  tapRow (TapState.ofNumber (w.extractLsb' 1 4).toNat) (w.getLsbD 0)

/-- A word together with the format it is read in. -/
structure CodeWord where
  fmt : Format
  word : Byte
  deriving DecidableEq, Repr

/-- The decoder over the four formats: total on any byte. -/
def decode (w : CodeWord) : Decoded :=
  match w.fmt with
  | .hostHeader => decodeHeader w.word
  | .pdiOpcode => .instr (decodeOpcode w.word)
  | .jtagIr =>
    if w.word.toNat < 16 then decodeIr (w.word.setWidth 4) else .rejected (.tooWide .jtagIr w.word)
  | .tapStep =>
    if w.word.toNat < 32 then .instr (decodeTapStep (w.word.setWidth 5))
    else .rejected (.tooWide .tapStep w.word)

/-! ## The encoder -/

/-- An opcode byte from its opcode, its bit 4 and its low four bits (30_encoding.md R68, R73). -/
def opcodeByte (opcode : Nat) (spare : Bool) (low : Nat) : Byte :=
  BitVec.ofNat 8 (32 * opcode + (if spare then 16 else 0) + low)

/-- The word of an instruction, from the tables of 30_encoding.md R67, R73, R75, R78. -/
def encode : Instr → CodeWord
  | .hdrReset => ⟨.hostHeader, 0x1E⟩
  | .hdrIdCode => ⟨.hostHeader, 0x10⟩
  | .hdrPdi => ⟨.hostHeader, 0x11⟩
  | .hdrError => ⟨.hostHeader, 0x1F⟩
  | .lds x a b => ⟨.pdiOpcode, opcodeByte 0 x (4 * (a - 1) + (b - 1))⟩
  | .ld x m b => ⟨.pdiOpcode, opcodeByte 1 x (4 * (m - 1) + (b - 1))⟩
  | .sts x a b => ⟨.pdiOpcode, opcodeByte 2 x (4 * (a - 1) + (b - 1))⟩
  | .st x m b => ⟨.pdiOpcode, opcodeByte 3 x (4 * (m - 1) + (b - 1))⟩
  | .ldcs x c => ⟨.pdiOpcode, opcodeByte 4 x c⟩
  | .rept x u b => ⟨.pdiOpcode, opcodeByte 5 x (4 * u + (b - 1))⟩
  | .stcs x c => ⟨.pdiOpcode, opcodeByte 6 x c⟩
  | .key x u => ⟨.pdiOpcode, opcodeByte 7 x u⟩
  | .irIdcode => ⟨.jtagIr, 0x3⟩
  | .irPdicom => ⟨.jtagIr, 0x7⟩
  | .irBypass => ⟨.jtagIr, 0xF⟩
  | .resetTms0 => ⟨.tapStep, 0⟩
  | .resetTms1 => ⟨.tapStep, 1⟩
  | .idleTms0 => ⟨.tapStep, 2⟩
  | .idleTms1 => ⟨.tapStep, 3⟩
  | .selectDRTms0 => ⟨.tapStep, 4⟩
  | .selectDRTms1 => ⟨.tapStep, 5⟩
  | .captureDRTms0 => ⟨.tapStep, 6⟩
  | .captureDRTms1 => ⟨.tapStep, 7⟩
  | .shiftDRTms0 => ⟨.tapStep, 8⟩
  | .shiftDRTms1 => ⟨.tapStep, 9⟩
  | .exit1DRTms0 => ⟨.tapStep, 10⟩
  | .exit1DRTms1 => ⟨.tapStep, 11⟩
  | .pauseDRTms0 => ⟨.tapStep, 12⟩
  | .pauseDRTms1 => ⟨.tapStep, 13⟩
  | .exit2DRTms0 => ⟨.tapStep, 14⟩
  | .exit2DRTms1 => ⟨.tapStep, 15⟩
  | .updateDRTms0 => ⟨.tapStep, 16⟩
  | .updateDRTms1 => ⟨.tapStep, 17⟩
  | .selectIRTms0 => ⟨.tapStep, 18⟩
  | .selectIRTms1 => ⟨.tapStep, 19⟩
  | .captureIRTms0 => ⟨.tapStep, 20⟩
  | .captureIRTms1 => ⟨.tapStep, 21⟩
  | .shiftIRTms0 => ⟨.tapStep, 22⟩
  | .shiftIRTms1 => ⟨.tapStep, 23⟩
  | .exit1IRTms0 => ⟨.tapStep, 24⟩
  | .exit1IRTms1 => ⟨.tapStep, 25⟩
  | .pauseIRTms0 => ⟨.tapStep, 26⟩
  | .pauseIRTms1 => ⟨.tapStep, 27⟩
  | .exit2IRTms0 => ⟨.tapStep, 28⟩
  | .exit2IRTms1 => ⟨.tapStep, 29⟩
  | .updateIRTms0 => ⟨.tapStep, 30⟩
  | .updateIRTms1 => ⟨.tapStep, 31⟩

/-! ## Table words -/

/-- The format in which a table word is read when only its bit count is known. 4 bits: a JTAG code; 5 bits: a TAP
step; 8 bits (every row's count in whole bytes): the four formats overlap there, and on every interface position
decides (20_memory.md R58), so this reader chooses: the four header bytes are headers, the three JTAG codes JTAG
codes, the other words below 32 but for 0 TAP steps, all else opcode bytes. No step of the machine uses this
choice. DESIGN CHOICE, entry 5. -/
def tableFormat (nbits w : Nat) : Option Format :=
  if nbits = 4 then some .jtagIr
  else if nbits = 5 then some .tapStep
  else if nbits = 8 then
    if w = 0x1E ∨ w = 0x10 ∨ w = 0x11 ∨ w = 0x1F then some .hostHeader
    else if w = 0x3 ∨ w = 0x7 ∨ w = 0xF then some .jtagIr
    else if 0 < w ∧ w < 32 then some .tapStep
    else some .pdiOpcode
  else none

/-- The instruction the decoder reads from a table word of `nbits` bits. -/
def decodeTableWord (nbits w : Nat) : Option Instr :=
  match tableFormat nbits w with
  | some f => if w < 256 then (decode ⟨f, BitVec.ofNat 8 w⟩).toOption else none
  | none => none

end Sys2Proof
end

