-- ==== Sys2Proof/Machine/State.lean ====
section
/-! DEFINITION. The state of the block, the reasons a step can stop, and the state after reset (10_state.md). -/

namespace Sys2Proof.Machine

open Sys2Proof

/-- The role of an instance (10_state.md R10). -/
inductive Role where
  | driver | observer
  deriving DecidableEq, Repr

/-- The TAP core (10_state.md R11 to R13). -/
structure Tap where
  state : TapState
  ir : IrCode
  irNext : IrCode
  deriving DecidableEq, Repr

/-- The PDI codec: the Transaction and the repeat count (10_state.md R22 to R29). -/
structure Codec where
  opcode : BitVec 4
  sizeA : Nat
  sizeB : Nat
  writeRemaining : Nat
  readRemaining : Nat
  repeatCount : Word32
  repeatAcc : Word32
  isNewCommand : Bool
  deriving DecidableEq, Repr

/-- The Driver operation in progress (10_state.md R21). -/
inductive DriverOp where
  | none | reset | readId | pdiTransfer
  deriving DecidableEq, Repr

/-- The adapter state (10_state.md R31). -/
inductive AdapterState where
  | awaitHeader | awaitOpcode | run
  deriving DecidableEq, Repr

/-- Where the adapter stands inside `Run`: what it does when the running operation has ended
(45_command_adapter.md R222 to R227). The MODEL's own field, entry 9. -/
inductive Task where
  /-- At the loop test of DoPdi (R224). -/
  | none
  /-- Inside DoReset, before its HostWrite (R222). -/
  | finishReset
  /-- Inside DoIdCode, before its HostWrites (R223). -/
  | finishIdCode
  /-- Inside SendOpcode (R225). -/
  | sentOpcode
  /-- Inside DoWriteSlot, before WriteSlot (R226). -/
  | sentWrite
  /-- Inside DoReadSlot, before the parity check (R227). -/
  | sentRead
  deriving DecidableEq, Repr

/-- Which kind of unit a fault was found in (60_exceptions.md R255). -/
inductive UnitKind where
  | opcode | write | read
  deriving DecidableEq, Repr

/-- The two faults of the core, values with what 60_exceptions.md R255 records of each. They are taken by the
machine (R260) and never stop it. -/
inductive PdiFault where
  /-- A consumed unit with bad parity (R256). -/
  | parityError (unit : Unit9) (kind : UnitKind)
  /-- A dispatch that found `pdi.opcode` outside 0..7 (R257). -/
  | protocolError (opcode : BitVec 4)
  deriving DecidableEq, Repr

/-- A fault as it leaves a Driver on its fault output: the value, with the unit that failed (45_command_adapter.md R233,
60_exceptions.md R262). -/
structure FaultReport where
  fault : PdiFault
  unit : Unit9
  deriving DecidableEq, Repr

/-- What the Observer builds on every entry to UPDATE-DR (43_tap_observer.md R168): `width` is 9 or 32 and the two
data fields hold `width` bits. -/
structure CapturedDR where
  instr : IrCode
  width : Nat
  tdi : Word32
  tdo : Word32
  deriving DecidableEq, Repr

/-- The events (43_tap_observer.md R172; CapturedDR is R168's). -/
inductive Event where
  | stateTransition (prev next : TapState)
  | capturedDR (c : CapturedDR)
  | idCode (raw32 : Word32)
  | otherDR (instr : IrCode) (tdi tdo : Word32)
  | pdiOpcode (byte : Byte) (opcode : BitVec 4) (sizeA sizeB : Nat) (repeatCount : Word32)
  | pdiWrite (byte : Byte) (isNewCommand : Bool)
  | pdiRead (byte : Byte) (isNewCommand : Bool)
  | pdiDone (opcode : BitVec 4)
  /-- The fault with its recorded value (60_exceptions.md R255), and the offending unit, which R172 lists for both
  faults. -/
  | fault (f : PdiFault) (unit : Unit9)
  deriving DecidableEq, Repr

/-- The three bits of one logical step on the bus (20_memory.md R42). -/
structure BusSample where
  tms : Bool
  tdi : Bool
  tdo : Bool
  deriving DecidableEq, Repr

/-- A Driver instance (10_state.md R10, R14 to R17, R20, R21, R31, R32) with its streams (20_memory.md R41, R42). -/
structure Driver where
  tap : Tap
  sr : Word32
  pdiOut : Unit9
  pdiIn : Unit9
  /-- `drv.idcode.raw32`, all that is stored of a DeviceIdCode (46_device_id.md R251). -/
  idcode : Word32
  complete : Bool
  op : DriverOp
  idx : Nat
  pdi : Codec
  adState : AdapterState
  inBuf : Option Byte
  task : Task
  hostIn : List Byte
  hostOut : List Byte
  faults : List FaultReport
  tdoIn : List Bool
  bus : List BusSample
  events : List Event
  deriving DecidableEq, Repr

/-- An Observer instance (10_state.md R10, R18, R19) with its streams (20_memory.md R42, R46). -/
structure Observer where
  tap : Tap
  srTdi : Word32
  srTdo : Word32
  pdi : Codec
  samples : List BusSample
  events : List Event
  deriving DecidableEq, Repr

/-- The whole state: one Driver instance and one Observer instance, which share nothing (20_memory.md R59). -/
structure State where
  drv : Driver
  obs : Observer
  deriving DecidableEq, Repr

/-- Reasons a step stops the machine: none. "All errors are values/returns, not process-terminating faults"
(60_exceptions.md R255), and every instruction, adapter action and sample has its effect. Nobody raises it; safe. -/
inductive Fault where
  deriving DecidableEq, Repr

/-- Reasons an instruction has no meaning. -/
inductive Refusal where
  /-- Raised by `exec` alone, for an instruction without a meaning yet; safe. No arm raises it now. -/
  | notModelled (mnemonic : String)
  deriving DecidableEq, Repr

/-! ## Power-on (10_state.md R36, 70_reset_and_hazards.md R280) -/

/-- The TAP core at power-on: RESET with IDCODE latched; `irNext` is unspecified, 0 here (DESIGN CHOICE, entry 2). -/
def Tap.powerOn : Tap := { state := .reset, ir := 0x3, irNext := 0x0 }

/-- The codec at power-on (10_state.md R36). -/
def Codec.powerOn : Codec where
  opcode := 0xF
  sizeA := 1
  sizeB := 1
  writeRemaining := 0
  readRemaining := 0
  repeatCount := 0
  repeatAcc := 0
  isNewCommand := false

/-- The Driver at power-on; `sr`, `pdiOut`, `pdiIn`, `idcode` are unspecified, 0 here (DESIGN CHOICE, entry 2). -/
def Driver.powerOn : Driver where
  tap := Tap.powerOn
  sr := 0
  pdiOut := 0
  pdiIn := 0
  idcode := 0
  complete := false
  op := .none
  idx := 0
  pdi := Codec.powerOn
  adState := .awaitHeader
  inBuf := none
  task := .none
  hostIn := []
  hostOut := []
  faults := []
  tdoIn := []
  bus := []
  events := []

/-- The Observer at power-on; `srTdi`, `srTdo` are unspecified, 0 here (DESIGN CHOICE, entry 2). -/
def Observer.powerOn : Observer where
  tap := Tap.powerOn
  srTdi := 0
  srTdo := 0
  pdi := Codec.powerOn
  samples := []
  events := []

/-- The machine right after reset: both instances at power-on, nothing on any stream. -/
def State.reset : State := { drv := Driver.powerOn, obs := Observer.powerOn }

end Sys2Proof.Machine
end

