-- ==== Sys2Proof/Machine/Operands.lean ====
section
/-! DEFINITION. The operand forms and the pure bit operations: register widths, shifts, loads and extraction
(41_shift_register.md), the count table and the repeat operand (44_pdi_codec.md R182, R197), the fields of a
device-ID word (30_encoding.md R77), the transition table (40_tap.md R101 to R116). -/

namespace Sys2Proof.Machine

open Sys2Proof

/-! ## The TAP transition table -/

/-- `TapNext(s, tms)`: the normative table of 40_tap.md section 2 (R101 to R116). -/
def tapNext : TapState → Bool → TapState
  | .reset, false => .idle
  | .reset, true => .reset
  | .idle, false => .idle
  | .idle, true => .selectDR
  | .selectDR, false => .captureDR
  | .selectDR, true => .selectIR
  | .captureDR, false => .shiftDR
  | .captureDR, true => .exit1DR
  | .shiftDR, false => .shiftDR
  | .shiftDR, true => .exit1DR
  | .exit1DR, false => .pauseDR
  | .exit1DR, true => .updateDR
  | .pauseDR, false => .pauseDR
  | .pauseDR, true => .exit2DR
  | .exit2DR, false => .shiftDR
  | .exit2DR, true => .updateDR
  | .updateDR, false => .idle
  | .updateDR, true => .selectDR
  | .selectIR, false => .captureIR
  | .selectIR, true => .reset
  | .captureIR, false => .shiftIR
  | .captureIR, true => .exit1IR
  | .shiftIR, false => .shiftIR
  | .shiftIR, true => .exit1IR
  | .exit1IR, false => .pauseIR
  | .exit1IR, true => .updateIR
  | .pauseIR, false => .pauseIR
  | .pauseIR, true => .exit2IR
  | .exit2IR, false => .shiftIR
  | .exit2IR, true => .updateIR
  | .updateIR, false => .idle
  | .updateIR, true => .selectDR

/-! ## Shift registers -/

/-- `W(ir)`: 9 for PDICOM, else 32 (41_shift_register.md R131). -/
def width (ir : IrCode) : Nat := if ir = 0x7 then 9 else 32

/-- One shift of a 32-bit register: `bit ‖ r[31:1]` (41_shift_register.md R133, 43_tap_observer.md R167). -/
def shiftIn (bit : Bool) (r : Word32) : Word32 := BitVec.ofBool bit ++ r.extractLsb' 1 31

/-- One shift of the pending instruction: `tdi ‖ irNext[3:1]` (40_tap.md R119). -/
def shiftInIr (tdi : Bool) (r : IrCode) : IrCode := BitVec.ofBool tdi ++ r.extractLsb' 1 3

/-- `r[31:32-w]`, the `w` bits captured, as a 32-bit word (41_shift_register.md R134). -/
def extracted (w : Nat) (r : Word32) : Word32 := r >>> (32 - w)

/-- `r[31:23]`, the top nine bits (40_tap.md R121). -/
def top9 (r : Word32) : Unit9 := r.extractLsb' 23 9

/-! ## PDI operands -/

/-- The byte an instruction of the `pdi_opcode` format stands for, spare bits included (45_command_adapter.md R225). -/
def byteOf (i : Instr) : Byte := (encode i).word

/-- `sizeA` as computed mechanically from a control/status address or unused bits (30_encoding.md R69, R71). -/
def sizeAOfLow (low : Nat) : Nat := low / 4 % 4 + 1

/-- `sizeB` as computed mechanically from a control/status address or unused bits (30_encoding.md R69, R71). -/
def sizeBOfLow (low : Nat) : Nat := low % 4 + 1

/-- `(acc << 8) | byte` on 32 bits (44_pdi_codec.md R193, R197). -/
def accumulate (acc : Word32) (b : Byte) : Word32 := (acc <<< 8) ||| b.setWidth 32

/-- Byte `i` of a word (00_scope.md R7). -/
def byteAt (v : Word32) (i : Nat) : Word32 := (v >>> (8 * i)) &&& 0xFF

/-- `byterev_N(v)`: byte `i` becomes byte `N-1-i`, the bytes from `N` on are 0 (00_scope.md R7). -/
def byterev (n : Nat) (v : Word32) : Word32 :=
  (List.range n).foldl (fun acc i => acc + (byteAt v i <<< (8 * (n - 1 - i)))) 0

/-- `Counts`: write and read slots of the whole transaction of an opcode byte accepted with `r` further iterations
pending, as (writeCount, readCount) (44_pdi_codec.md R182). A specification function: the machine iterates
instead (R207). -/
def counts (b : Byte) (r : Nat) : Nat × Nat :=
  match decodeOpcode b with
  | .lds _ a b => (a, b)
  | .ld _ _ b => (0, b * (r + 1))
  | .sts _ a b => (a + b, 0)
  | .st _ _ b => (b * (r + 1), 0)
  | .ldcs _ _ => (0, 1)
  | .stcs _ _ => (1, 0)
  | .rept _ _ b => (b, 0)
  | .key _ _ => (8, 0)
  | _ => (0, 0)

/-- Units on the link of a transaction: the opcode byte and its slots (30_encoding.md R80). -/
def linkUnits (b : Byte) (r : Nat) : Nat := 1 + (counts b r).1 + (counts b r).2

/-- Bytes of a `PDI` host command: header, opcode byte, write bytes (30_encoding.md R81). -/
def commandLength (b : Byte) (r : Nat) : Nat := 2 + (counts b r).1

/-! ## Device-ID fields (30_encoding.md R77) -/

/-- `version = raw32[31:28]` (46_device_id.md R247). -/
def idVersion (raw : Word32) : BitVec 4 := raw.extractLsb' 28 4

/-- `partId = raw32[27:12]` (46_device_id.md R248, conflict C1). -/
def idPart (raw : Word32) : BitVec 16 := raw.extractLsb' 12 16

/-- `manufacturerId = raw32[11:1]` (46_device_id.md R250). -/
def idManufacturer (raw : Word32) : BitVec 11 := raw.extractLsb' 1 11

/-- Byte `k` of a word, `k = 3` the most significant (20_memory.md R47). -/
def wordByte (v : Word32) (k : Nat) : Byte := v.extractLsb' (8 * k) 8

end Sys2Proof.Machine
end

