-- ==== Sys2Proof/Machine/Ops.lean ====
section
/-! DEFINITION. The named operations over State that the meanings share: streams, the codec, taking a fault, the
Driver's sequences, the data and entry actions of the TAP core. -/

namespace Sys2Proof.Machine

open Sys2Proof

/-! ## Instances -/

/-- Which instance takes the next step: the Observer while a bus sample is pending, else the Driver. The two share
nothing (20_memory.md R59), so the order is invisible to each. DESIGN CHOICE, entry 1. -/
def State.due (s : State) : Role :=
  match s.obs.samples with
  | [] => .driver
  | _ :: _ => .observer

/-- The TAP core of an instance. -/
def State.tapOf (s : State) : Role → Tap
  | .driver => s.drv.tap
  | .observer => s.obs.tap

/-- Write the TAP core of an instance. -/
def State.setTap (s : State) (r : Role) (t : Tap) : State :=
  match r with
  | .driver => { s with drv := { s.drv with tap := t } }
  | .observer => { s with obs := { s.obs with tap := t } }

/-- The codec of an instance. -/
def State.codecOf (s : State) : Role → Codec
  | .driver => s.drv.pdi
  | .observer => s.obs.pdi

/-- Write the codec of an instance. -/
def State.setCodec (s : State) (r : Role) (c : Codec) : State :=
  match r with
  | .driver => { s with drv := { s.drv with pdi := c } }
  | .observer => { s with obs := { s.obs with pdi := c } }

/-! ## Streams -/

/-- `emit` of the events of an instance, in order (00_scope.md R8). -/
def State.emit (s : State) (r : Role) (es : List Event) : State :=
  match r with
  | .driver => { s with drv := { s.drv with events := s.drv.events ++ es } }
  | .observer => { s with obs := { s.obs with events := s.obs.events ++ es } }

/-- `emit` of codec events: in a Driver they have no destination and are dropped (44_pdi_codec.md R180, entry 22). -/
def State.emitCodec (s : State) (r : Role) (es : List Event) : State :=
  match r with
  | .driver => s
  | .observer => s.emit .observer es

/-- `HostRead()`: the next host byte into `ad.inBuf`; nothing while the stream has none (45_command_adapter.md
R221), and never a second byte (R231). The consuming rule empties the buffer in the same step. -/
def State.hostRead (s : State) : State :=
  match s.drv.inBuf, s.drv.hostIn with
  | none, b :: rest => { s with drv := { s.drv with inBuf := some b, hostIn := rest } }
  | _, _ => s

/-- `HostWrite` of some bytes in order (00_scope.md R8, 45_command_adapter.md R231). -/
def State.hostWrite (s : State) (bs : List Byte) : State :=
  { s with drv := { s.drv with hostOut := s.drv.hostOut ++ bs } }

/-- The TDO bit of the Driver's next bus step: the target's, or a free value (20_memory.md R43, entry 3). -/
def State.nextTdo (s : State) : Bool :=
  match s.drv.tdoIn with
  | b :: _ => b
  | [] => Config.freeTdo s.drv.bus.length

/-! ## The codec (44_pdi_codec.md) -/

/-- `Abort()` (R202). `sizeA` and `sizeB` keep their values. -/
def Codec.abort (c : Codec) : Codec :=
  { c with opcode := 0xF, writeRemaining := 0, readRemaining := 0, repeatCount := 0, repeatAcc := 0,
           isNewCommand := false }

/-- The register writes of `Accept(b)` (R183) for a decoded opcode and its first-iteration loads. -/
def Codec.accept (c : Codec) (opcode : BitVec 4) (sizeA sizeB writes reads : Nat) : Codec :=
  { c with opcode := opcode, sizeA := sizeA, sizeB := sizeB, writeRemaining := writes, readRemaining := reads,
           isNewCommand := true, repeatAcc := if opcode = 5 then 0 else c.repeatAcc }

/-- The REPEAT capture at the end of a REPEAT transaction (R196, R197). -/
def Codec.captureRepeat (c : Codec) : Codec :=
  if c.opcode = 5 then { c with repeatCount := byterev c.sizeB c.repeatAcc } else c

/-- LD and ST are the repeatable opcodes (R182, R196). -/
def Codec.repeatable (c : Codec) : Bool := c.opcode == 1 || c.opcode == 3

/-- The repeat reload (R196): one more iteration of LD or ST. -/
def Codec.reload (c : Codec) : Codec :=
  { c with repeatCount := c.repeatCount - 1, isNewCommand := false,
           readRemaining := if c.opcode = 1 then c.sizeB else c.readRemaining,
           writeRemaining := if c.opcode = 3 then c.sizeB else c.writeRemaining }

/-- The end of a transaction (R196). -/
def Codec.finish (c : Codec) : Codec := { c with opcode := 0xF, isNewCommand := false }

/-- `Settle()`: iteration reload and end of transaction, with the events emitted (R196). -/
def Codec.settle (c : Codec) : Codec × List Event :=
  if c.writeRemaining = 0 ∧ c.readRemaining = 0 then
    let c := c.captureRepeat
    if c.repeatable ∧ c.repeatCount ≠ 0 then (c.reload, [])
    else (c.finish, [.pdiDone c.opcode])
  else (c, [])

/-- The counting part of `WriteSlot` before `Settle` (R193). -/
def Codec.countWrite (c : Codec) (b : Byte) : Codec :=
  { c with repeatAcc := if c.opcode = 5 then accumulate c.repeatAcc b else c.repeatAcc,
           writeRemaining := c.writeRemaining - 1 }

/-- The counting part of `ReadSlot` before `Settle` (R194). -/
def Codec.countRead (c : Codec) : Codec := { c with readRemaining := c.readRemaining - 1 }

/-- `WriteSlot(byte)` (R193). -/
def Codec.writeSlot (c : Codec) (b : Byte) : Codec × List Event :=
  ((c.countWrite b).settle.1, .pdiWrite b c.isNewCommand :: (c.countWrite b).settle.2)

/-- `ReadSlot(byte)` (R194). -/
def Codec.readSlot (c : Codec) (b : Byte) : Codec × List Event :=
  (c.countRead.settle.1, .pdiRead b c.isNewCommand :: c.countRead.settle.2)

/-- The result of `NextSlot()` (R195). -/
inductive Slot where
  | write | read | none
  deriving DecidableEq, Repr

/-- `NextSlot()`: write slots before read slots (R195). -/
def Codec.nextSlot (c : Codec) : Slot :=
  if 0 < c.writeRemaining then .write else if 0 < c.readRemaining then .read else .none

/-- The dispatch on `pdi.opcode` finds one of the eight opcodes (R201, 60_exceptions.md R257). -/
def Codec.dispatchOk (c : Codec) : Bool := decide (c.opcode.toNat < 8)

/-! ## Taking a fault (60_exceptions.md R260) -/

/-- `raise F(info)`, the ONE way a fault is taken, for both faults and both roles (R260): the codec aborts, the
fault is reported with the unit that failed (45_command_adapter.md R233, 43_tap_observer.md R172), a Driver on its fault
output and with its adapter back in AwaitHeader, an Observer as an event. Nothing is saved, the TAP core and the data registers keep their values. There is no
return from it (R261). -/
def raise (r : Role) (f : PdiFault) (unit : Unit9) (s : State) : State :=
  let s := s.setCodec r (s.codecOf r).abort
  match r with
  | .driver => { s with drv := { s.drv with adState := .awaitHeader, faults := s.drv.faults ++ [⟨f, unit⟩] } }
  | .observer => s.emit .observer [.fault f unit]

/-! ## Slots of an instance -/

/-- A write slot of an instance on a unit: the dispatch on `pdi.opcode`, then `WriteSlot` of the unit's byte
(44_pdi_codec.md R193, R201). -/
def writeSlot (r : Role) (u : Unit9) (s : State) : State :=
  let c := s.codecOf r
  if c.dispatchOk then (s.setCodec r (c.writeSlot (unitData u)).1).emitCodec r (c.writeSlot (unitData u)).2
  else raise r (.protocolError c.opcode) u s

/-- `consumeReadByte`: a Driver returns the byte to the host, an Observer has already emitted it (44_pdi_codec.md
R180, R203; 45_command_adapter.md R227). -/
def consumeReadByte (r : Role) (b : Byte) (s : State) : State :=
  match r with
  | .driver => s.hostWrite [b]
  | .observer => s

/-- A read slot of an instance on a unit: the dispatch, `ReadSlot` of the unit's byte, the byte delivered
(44_pdi_codec.md R194, R201). -/
def readSlot (r : Role) (u : Unit9) (s : State) : State :=
  let c := s.codecOf r
  if c.dispatchOk then
    consumeReadByte r (unitData u)
      ((s.setCodec r (c.readSlot (unitData u)).1).emitCodec r (c.readSlot (unitData u)).2)
  else raise r (.protocolError c.opcode) u s

/-! ## The Driver's sequences (42_tap_driver.md) -/

/-- One pair `(tms, tdi)` of a sequence (R146). In a SHIFT-DR step the register supplies TDI instead. -/
structure Pair where
  tms : Bool
  tdi : Bool
  deriving DecidableEq, Repr

/-- `IrScan(code)` (R148). -/
def irScan (code : IrCode) : List Pair :=
  [⟨true, false⟩, ⟨true, false⟩, ⟨false, false⟩, ⟨false, false⟩, ⟨false, code.getLsbD 0⟩,
    ⟨false, code.getLsbD 1⟩, ⟨false, code.getLsbD 2⟩, ⟨true, code.getLsbD 3⟩, ⟨true, false⟩]

/-- `DrScan()` of width `w` (R149). -/
def drScan (w : Nat) : List Pair :=
  [⟨true, false⟩, ⟨false, false⟩, ⟨false, false⟩] ++ List.replicate (w - 1) ⟨false, false⟩ ++
    [⟨true, false⟩, ⟨true, false⟩, ⟨false, false⟩]

/-- The sequence of `issueReset()` (R147). -/
def resetSeq : List Pair := List.replicate Config.nResetHigh ⟨true, false⟩ ++ [⟨false, false⟩]

/-- The sequence of an operation, its optional instruction scan included (R147, R151, R152). -/
def opSeq : DriverOp → List Pair
  | .none => []
  | .reset => resetSeq
  | .readId => irScan 0x3 ++ drScan 32
  | .pdiTransfer => irScan 0x7 ++ drScan 9

/-- The operations that end with a data scan, whose last step carries `drv.complete` (R154). -/
def DriverOp.scans : DriverOp → Bool
  | .readId | .pdiTransfer => true
  | .none | .reset => false

/-- The index at which an operation that needs `code` starts: its instruction scan is skipped if `code` is latched
(R150, entry 8). -/
def startIdx (code : IrCode) (s : State) : Nat := if s.drv.tap.ir = code then (irScan code).length else 0

/-- `issueReset()` begins (R147). -/
def issueReset (s : State) : State := { s with drv := { s.drv with op := .reset, idx := 0 } }

/-- `issueReadId()` begins (R151). -/
def issueReadId (s : State) : State := { s with drv := { s.drv with op := .readId, idx := startIdx 0x3 s } }

/-- `PdiTransfer(b)` begins (R152). -/
def pdiTransfer (b : Byte) (s : State) : State :=
  { s with drv := { s.drv with pdiOut := unit9 b, op := .pdiTransfer, idx := startIdx 0x7 s } }

/-- The pair of the running operation that the next bus step drives (R146). -/
def State.currentPair (s : State) : Option Pair := (opSeq s.drv.op)[s.drv.idx]?

/-- The TDI bit of a bus step taken in a TAP state: the register's bit 0 in SHIFT-DR, the code's bit in SHIFT-IR, 0
elsewhere (R146). -/
def drvTdi (prev : TapState) (s : State) : Bool :=
  match prev with
  | .shiftDR => s.drv.sr.getLsbD 0
  | .shiftIR =>
    match s.currentPair with
    | some p => p.tdi
    | none => false
  | _ => false

/-- The sequencer after a bus step: the next index, or the end of the operation, where a data scan raises
`drv.complete` (R146, R154; 10_state.md R20, R21; entries 11, 13). -/
def advance (s : State) : State :=
  if (opSeq s.drv.op).length ≤ s.drv.idx + 1 then
    { s with drv := { s.drv with op := .none, idx := 0, complete := s.drv.op.scans } }
  else { s with drv := { s.drv with idx := s.drv.idx + 1, complete := false } }

/-- A bus step's three bits recorded and the target's answer taken (20_memory.md R42). -/
def recordBus (b : BusSample) (s : State) : State :=
  { s with drv := { s.drv with bus := s.drv.bus ++ [b], tdoIn := s.drv.tdoIn.tail } }

/-! ## Actions of the TAP core (40_tap.md section 3) -/

/-- The step taken in CAPTURE-DR: a Driver loads its register, an Observer does nothing (R122;
41_shift_register.md R132). -/
def captureDR (r : Role) (s : State) : State :=
  match r with
  | .driver =>
    { s with drv := { s.drv with
        sr := if s.drv.tap.ir = 0x7 then s.drv.pdiOut.setWidth 32 else Config.idcodeFill } }
  | .observer => s

/-- A step taken in SHIFT-DR (41_shift_register.md R133, 43_tap_observer.md R167). -/
def shiftDR (r : Role) (tdi tdo : Bool) (s : State) : State :=
  match r with
  | .driver => { s with drv := { s.drv with sr := shiftIn tdo s.drv.sr } }
  | .observer =>
    { s with obs := { s.obs with srTdi := shiftIn tdi s.obs.srTdi, srTdo := shiftIn tdo s.obs.srTdo } }

/-- A step taken in SHIFT-IR (R119). -/
def shiftIR (r : Role) (tdi : Bool) (s : State) : State :=
  s.setTap r { s.tapOf r with irNext := shiftInIr tdi (s.tapOf r).irNext }

/-- The transition (R100). -/
def moveTap (r : Role) (next : TapState) (s : State) : State :=
  s.setTap r { s.tapOf r with state := next }

/-- Entry to RESET: IDCODE is latched; an Observer's codec returns to IDLE (R117; 43_tap_observer.md R174). -/
def enterReset (r : Role) (s : State) : State :=
  let s := s.setTap r { s.tapOf r with ir := 0x3 }
  match r with
  | .driver => s
  | .observer => s.setCodec .observer (s.codecOf .observer).abort

/-- Entry to UPDATE-IR: the pending bits are latched (R120). -/
def updateIR (r : Role) (s : State) : State :=
  s.setTap r { s.tapOf r with ir := (s.tapOf r).irNext }

/-- `CapturedDR` under a latched code (43_tap_observer.md R168). -/
def capturedDR (code : IrCode) (s : State) : CapturedDR where
  instr := code
  width := width code
  tdi := extracted (width code) s.obs.srTdi
  tdo := extracted (width code) s.obs.srTdo

end Sys2Proof.Machine
end

