-- ==== Sys2Proof/Machine/Adapter.lean ====
section
/-! DEFINITION. The command protocol adapter (45_command_adapter.md): the four host headers and the actions between
two Driver operations. -/

namespace Sys2Proof.Machine

open Sys2Proof

/-- The consuming rule empties `ad.inBuf` and the adapter moves (R221). -/
def consumeInto (a : AdapterState) (s : State) : State :=
  { s with drv := { s.drv with adState := a, inBuf := none } }

/-- Where the adapter stands while an operation runs (entry 9). -/
def withTask (t : Task) (s : State) : State := { s with drv := { s.drv with task := t } }

/-- `Reset`: `DoReset` up to the first bus step (R222): the codec aborts, the Reset sequence begins. -/
def doReset (s : State) : State :=
  withTask .finishReset (issueReset
    ((consumeInto .run s).setCodec .driver (s.codecOf .driver).abort))

/-- `IDCode`: `DoIdCode` up to the first bus step (R223). -/
def doIdCode (s : State) : State := withTask .finishIdCode (issueReadId (consumeInto .run s))

/-- `PDI`: the header is taken, the next byte is the opcode byte (R224). -/
def doPdi (s : State) : State := consumeInto .awaitOpcode s

/-- A header with no effect: consumed, the adapter looks at the next one (R229, R230). -/
def skipHeader (s : State) : State := consumeInto .awaitHeader s

/-! ## The meanings -/

/-- Reset (R222). -/
def execHdrReset (s : State) : Host.Outcome State Fault Refusal := .next (doReset s)

/-- IDCode (R223). -/
def execHdrIdCode (s : State) : Host.Outcome State Fault Refusal := .next (doIdCode s)

/-- PDI (R224). -/
def execHdrPdi (s : State) : Host.Outcome State Fault Refusal := .next (doPdi s)

/-- Error (R229). -/
def execHdrError (s : State) : Host.Outcome State Fault Refusal := .next (skipHeader s)

/-- `ResetFailure`, the host's judgement of a `Reset` response: a status byte that is not 1 (60_exceptions.md R259). It
arises outside the block, which always answers 0x01 (R222). -/
def resetFailure (status : Byte) : Option Byte := if status = 0x01 then none else some status

/-! ## Actions between operations -/

/-- The adapter takes note that the operation is over: `drv.complete` was an output of the last bus step only
(10_state.md R20). -/
def handOver (s : State) : State := { s with drv := { s.drv with task := .none, complete := false } }

/-- The end of a command: back to AwaitHeader (R220, R228). -/
def endCommand (s : State) : State := { s with drv := { s.drv with adState := .awaitHeader } }

/-- The loop test of DoPdi after a slot: the command is over when the codec is IDLE (R224, R228). -/
def loopTest (s : State) : State := if s.drv.pdi.opcode = 0xF then endCommand s else s

/-- The end of `DoReset`: the status byte 1 (R222). -/
def finishReset (s : State) : State := endCommand ((handOver s).hostWrite [0x01])

/-- The end of `DoIdCode`: four bytes, most significant first (R223, 20_memory.md R47). -/
def finishIdCode (s : State) : State :=
  endCommand ((handOver s).hostWrite
    [wordByte s.drv.idcode 3, wordByte s.drv.idcode 2, wordByte s.drv.idcode 1, wordByte s.drv.idcode 0])

/-- The end of a write slot: `WriteSlot` of the byte just sent; the received unit is dropped unchecked (R226). -/
def finishWrite (s : State) : State := loopTest (writeSlot .driver s.drv.pdiOut (handOver s))

/-- The end of a read slot: parity, then `ReadSlot` and the byte to the host, or `ParityError` (R227). -/
def finishRead (s : State) : State :=
  if parityOk s.drv.pdiIn then loopTest (readSlot .driver s.drv.pdiIn (handOver s))
  else raise .driver (.parityError s.drv.pdiIn .read) s.drv.pdiIn (handOver s)

/-- `DoWriteSlot` up to the transfer: the stall for the host's byte, then `PdiTransfer(d)` (R226). -/
def startWrite (s : State) : State :=
  match s.hostRead.drv.inBuf with
  | none => s
  | some d => withTask .sentWrite (pdiTransfer d (consumeInto .run s.hostRead))

/-- `DoReadSlot` up to the transfer: the fill is sent (R227, 42_tap_driver.md R153). -/
def startRead (s : State) : State := withTask .sentRead (pdiTransfer Config.pdiReadFill s)

/-- The loop of DoPdi between two slots (R224). With the codec IDLE the command is over; a running transaction
always has a slot (10_state.md R30), so the last arm is reached in no run (entry 20). -/
def nextSlotAction (s : State) : State :=
  if s.drv.pdi.opcode = 0xF then endCommand s
  else
    match s.drv.pdi.nextSlot with
    | .write => startWrite s
    | .read => startRead s
    | .none => s

/-- What the adapter does in `Run` when no operation is running. -/
def adapterRun (s : State) : State :=
  match s.drv.task with
  | .finishReset => finishReset s
  | .finishIdCode => finishIdCode s
  | .sentOpcode => handOver s
  | .sentWrite => finishWrite s
  | .sentRead => finishRead s
  | .none => nextSlotAction s

end Sys2Proof.Machine
end

