-- ==== Sys2Proof/Machine/Pdi.lean ====
section
/-! DEFINITION. The eight PDI opcodes (44_pdi_codec.md R184 to R191). Executing one is `Accept` of its byte in the
codec of the instance that took it: the Driver's from the host, then sent on the link as the first unit of the
transaction (45_command_adapter.md R224, R225); the Observer's from a captured unit (44_pdi_codec.md R204). The
slots that follow are adapter actions (Machine/Adapter.lean) or later captures (Machine/Observer.lean). -/

namespace Sys2Proof.Machine

open Sys2Proof

/-- `SendOpcode(b)` begins (45_command_adapter.md R224, R225): the byte has left the buffer. -/
def sendOpcode (b : Byte) (s : State) : State :=
  pdiTransfer b { s with drv := { s.drv with adState := .run, inBuf := none, task := .sentOpcode } }

/-- `Accept(b)` in an instance's codec with the event of R183, then in a Driver the opcode unit. -/
def acceptOpcode (r : Role) (b : Byte) (opcode : BitVec 4) (sizeA sizeB writes reads : Nat) (s : State) : State :=
  let c := s.codecOf r
  let s := (s.setCodec r (c.accept opcode sizeA sizeB writes reads)).emitCodec r
    [.pdiOpcode b opcode sizeA sizeB c.repeatCount]
  match r with
  | .driver => sendOpcode b s
  | .observer => s

/-- LDS: `sizeA` address bytes out, `sizeB` data bytes back (R184). -/
def acceptLds (r : Role) (spare : Bool) (sizeA sizeB : Nat) (s : State) : State :=
  acceptOpcode r (byteOf (.lds spare sizeA sizeB)) 0 sizeA sizeB sizeA sizeB s

/-- LD: `sizeB` read slots per iteration; the mode enters no count (R185). -/
def acceptLd (r : Role) (spare : Bool) (mode sizeB : Nat) (s : State) : State :=
  acceptOpcode r (byteOf (.ld spare mode sizeB)) 1 mode sizeB 0 sizeB s

/-- STS: `sizeA + sizeB` write slots (R186). -/
def acceptSts (r : Role) (spare : Bool) (sizeA sizeB : Nat) (s : State) : State :=
  acceptOpcode r (byteOf (.sts spare sizeA sizeB)) 2 sizeA sizeB (sizeA + sizeB) 0 s

/-- ST: `sizeB` write slots per iteration (R187). -/
def acceptSt (r : Role) (spare : Bool) (mode sizeB : Nat) (s : State) : State :=
  acceptOpcode r (byteOf (.st spare mode sizeB)) 3 mode sizeB sizeB 0 s

/-- LDCS: one read slot; the sizes are computed from the address bits and not used (R188). -/
def acceptLdcs (r : Role) (spare : Bool) (csAddr : Nat) (s : State) : State :=
  acceptOpcode r (byteOf (.ldcs spare csAddr)) 4 (sizeAOfLow csAddr) (sizeBOfLow csAddr) 0 1 s

/-- REPEAT: `sizeB` write slots, the accumulator cleared (R189). -/
def acceptRept (r : Role) (spare : Bool) (unused sizeB : Nat) (s : State) : State :=
  acceptOpcode r (byteOf (.rept spare unused sizeB)) 5 (unused + 1) sizeB sizeB 0 s

/-- STCS: one write slot (R190). -/
def acceptStcs (r : Role) (spare : Bool) (csAddr : Nat) (s : State) : State :=
  acceptOpcode r (byteOf (.stcs spare csAddr)) 6 (sizeAOfLow csAddr) (sizeBOfLow csAddr) 1 0 s

/-- KEY: eight write slots (R191). -/
def acceptKey (r : Role) (spare : Bool) (unused : Nat) (s : State) : State :=
  acceptOpcode r (byteOf (.key spare unused)) 7 (sizeAOfLow unused) (sizeBOfLow unused) 8 0 s

/-- `Accept` of a raw byte: the decoder, then the opcode's own effect ("both must produce identical decode
tables", 44_pdi_codec.md head). -/
def acceptByte (r : Role) (b : Byte) (s : State) : State :=
  match decodeOpcode b with
  | .lds x a b => acceptLds r x a b s
  | .ld x m b => acceptLd r x m b s
  | .sts x a b => acceptSts r x a b s
  | .st x m b => acceptSt r x m b s
  | .ldcs x c => acceptLdcs r x c s
  | .rept x u b => acceptRept r x u b s
  | .stcs x c => acceptStcs r x c s
  | .key x u => acceptKey r x u s
  | _ => s

/-! ## The meanings -/

/-- LDS (R184). -/
def execLds (spare : Bool) (sizeA sizeB : Nat) (s : State) : Host.Outcome State Fault Refusal :=
  .next (acceptLds s.due spare sizeA sizeB s)

/-- LD (R185). -/
def execLd (spare : Bool) (mode sizeB : Nat) (s : State) : Host.Outcome State Fault Refusal :=
  .next (acceptLd s.due spare mode sizeB s)

/-- STS (R186). -/
def execSts (spare : Bool) (sizeA sizeB : Nat) (s : State) : Host.Outcome State Fault Refusal :=
  .next (acceptSts s.due spare sizeA sizeB s)

/-- ST (R187). -/
def execSt (spare : Bool) (mode sizeB : Nat) (s : State) : Host.Outcome State Fault Refusal :=
  .next (acceptSt s.due spare mode sizeB s)

/-- LDCS (R188). -/
def execLdcs (spare : Bool) (csAddr : Nat) (s : State) : Host.Outcome State Fault Refusal :=
  .next (acceptLdcs s.due spare csAddr s)

/-- REPEAT (R189). -/
def execRept (spare : Bool) (unused sizeB : Nat) (s : State) : Host.Outcome State Fault Refusal :=
  .next (acceptRept s.due spare unused sizeB s)

/-- STCS (R190). -/
def execStcs (spare : Bool) (csAddr : Nat) (s : State) : Host.Outcome State Fault Refusal :=
  .next (acceptStcs s.due spare csAddr s)

/-- KEY (R191). -/
def execKey (spare : Bool) (unused : Nat) (s : State) : Host.Outcome State Fault Refusal :=
  .next (acceptKey s.due spare unused s)

end Sys2Proof.Machine
end

