-- ==== Sys2Proof/Machine/Jtag.lean ====
section
/-! DEFINITION. The three JTAG instructions (40_tap.md R125 to R127) and the codes that are none (R128). Executing
a latched instruction is what it does with the data register on entry to UPDATE-DR (R121): a Driver commits, an
Observer emits a CapturedDR and delivers it (43_tap_observer.md R168 to R171). Entry 6. -/

namespace Sys2Proof.Machine

open Sys2Proof

/-- `ObserveUnit(uTdi, uTdo)`: the traffic-reconstructing codec takes the units of one PDICOM scan
(44_pdi_codec.md R204): parity first, then the codec (60_exceptions.md R264). -/
def observeUnit (uTdi uTdo : Unit9) (s : State) : State :=
  if s.obs.pdi.opcode = 0xF then
    if parityOk uTdi then acceptByte .observer (unitData uTdi) s
    else raise .observer (.parityError uTdi .opcode) uTdi s
  else if 0 < s.obs.pdi.writeRemaining then
    if parityOk uTdi then writeSlot .observer uTdi s
    else raise .observer (.parityError uTdi .write) uTdi s
  else
    if parityOk uTdo then readSlot .observer uTdo s
    else raise .observer (.parityError uTdo .read) uTdo s

/-- The CapturedDR event of an entry to UPDATE-DR under a code (43_tap_observer.md R168). -/
def emitCaptured (code : IrCode) (s : State) : State := s.emit .observer [.capturedDR (capturedDR code s)]

/-- IDCODE at UPDATE-DR: `drv.idcode.raw32 <- drv.sr`, or `Event.IdCode` (40_tap.md R121; 43_tap_observer.md R169). -/
def idcodeUpdate (r : Role) (s : State) : State :=
  match r with
  | .driver => { s with drv := { s.drv with idcode := s.drv.sr } }
  | .observer => (emitCaptured 0x3 s).emit .observer [.idCode (capturedDR 0x3 s).tdo]

/-- PDICOM at UPDATE-DR: `drv.pdiIn <- drv.sr[31:23]`, or the two units to the codec (40_tap.md R121;
43_tap_observer.md R170). -/
def pdicomUpdate (r : Role) (s : State) : State :=
  match r with
  | .driver => { s with drv := { s.drv with pdiIn := top9 s.drv.sr } }
  | .observer => observeUnit (top9 s.obs.srTdi) (top9 s.obs.srTdo) (emitCaptured 0x7 s)

/-- UPDATE-DR under a code that commits nothing: a Driver does nothing, an Observer emits `Event.OtherDR`
(40_tap.md R121, R128; 43_tap_observer.md R171). -/
def otherUpdate (r : Role) (code : IrCode) (s : State) : State :=
  match r with
  | .driver => s
  | .observer =>
    (emitCaptured code s).emit .observer [.otherDR code (capturedDR code s).tdi (capturedDR code s).tdo]

/-- BYPASS at UPDATE-DR: nothing is committed (40_tap.md R127; 43_tap_observer.md R171). -/
def bypassUpdate (r : Role) (s : State) : State := otherUpdate r 0xF s

/-- Entry to UPDATE-DR: the latched instruction acts (40_tap.md R121). -/
def updateDR (r : Role) (s : State) : State :=
  match decodeIr (s.tapOf r).ir with
  | .instr .irIdcode => idcodeUpdate r s
  | .instr .irPdicom => pdicomUpdate r s
  | .instr .irBypass => bypassUpdate r s
  | _ => otherUpdate r (s.tapOf r).ir s

/-! ## The meanings -/

/-- IDCODE (40_tap.md R125). -/
def execIrIdcode (s : State) : Host.Outcome State Fault Refusal := .next (idcodeUpdate s.due s)

/-- PDICOM (40_tap.md R126). -/
def execIrPdicom (s : State) : Host.Outcome State Fault Refusal := .next (pdicomUpdate s.due s)

/-- BYPASS (40_tap.md R127). -/
def execIrBypass (s : State) : Host.Outcome State Fault Refusal := .next (bypassUpdate s.due s)

end Sys2Proof.Machine
end

