-- ==== Sys2Proof/Machine/Tap.lean ====
section
/-! DEFINITION. The TAP step (40_tap.md R100) and the 32 rows of its table (R101 to R116). A row carries its current
state and its decision bit (30_encoding.md R78); `tdi` and `tdo` come from the sequencer and the target (Driver,
42_tap_driver.md R146) or from the pending bus sample (Observer, 43_tap_observer.md R166). -/

namespace Sys2Proof.Machine

open Sys2Proof

/-- The actions tied to the current state of a step (40_tap.md R100, R118). -/
def stateAction (r : Role) (prev : TapState) (tdi tdo : Bool) (s : State) : State :=
  match prev with
  | .captureDR => captureDR r s
  | .shiftDR => shiftDR r tdi tdo s
  | .shiftIR => shiftIR r tdi s
  | _ => s

/-- The actions tied to the entry of a state (40_tap.md R100; 00_scope.md R9). -/
def entryAction (r : Role) (next : TapState) (s : State) : State :=
  match next with
  | .reset => enterReset r s
  | .updateIR => updateIR r s
  | .updateDR => updateDR r s
  | _ => s

/-- `step(tms, tdi, tdo)` of an instance whose current state is `prev` (40_tap.md R100): the state's action, the
transition, the entry's action, the event. -/
def tapStep (r : Role) (prev : TapState) (tms tdi tdo : Bool) (s : State) : State :=
  (entryAction r (tapNext prev tms) (moveTap r (tapNext prev tms) (stateAction r prev tdi tdo s))).emit r
    [.stateTransition prev (tapNext prev tms)]

/-- The Driver's bus step: `BusStep`, the TAP step, the sequencer (42_tap_driver.md R146). -/
def driverTap (prev : TapState) (tms : Bool) (s : State) : State :=
  advance (recordBus ⟨tms, drvTdi prev s, s.nextTdo⟩ (tapStep .driver prev tms (drvTdi prev s) s.nextTdo s))

/-- `observe` on a bus sample, which is then gone (43_tap_observer.md R166). -/
def observerTap (prev : TapState) (tms : Bool) (b : BusSample) (s : State) : State :=
  let s := tapStep .observer prev tms b.tdi b.tdo s
  { s with obs := { s.obs with samples := s.obs.samples.tail } }

/-- A TAP step of the instance that is due. -/
def tapInstr (prev : TapState) (tms : Bool) (s : State) : State :=
  match s.obs.samples with
  | [] => driverTap prev tms s
  | b :: _ => observerTap prev tms b s

/-! ## The meanings -/

/-- RESET.tms0 (40_tap.md R101). -/
def execResetTms0 (s : State) : Host.Outcome State Fault Refusal :=
  .next (tapInstr .reset false s)

/-- RESET.tms1 (40_tap.md R101). -/
def execResetTms1 (s : State) : Host.Outcome State Fault Refusal :=
  .next (tapInstr .reset true s)

/-- IDLE.tms0 (40_tap.md R102). -/
def execIdleTms0 (s : State) : Host.Outcome State Fault Refusal :=
  .next (tapInstr .idle false s)

/-- IDLE.tms1 (40_tap.md R102). -/
def execIdleTms1 (s : State) : Host.Outcome State Fault Refusal :=
  .next (tapInstr .idle true s)

/-- SELECT-DR.tms0 (40_tap.md R103). -/
def execSelectDRTms0 (s : State) : Host.Outcome State Fault Refusal :=
  .next (tapInstr .selectDR false s)

/-- SELECT-DR.tms1 (40_tap.md R103). -/
def execSelectDRTms1 (s : State) : Host.Outcome State Fault Refusal :=
  .next (tapInstr .selectDR true s)

/-- CAPTURE-DR.tms0 (40_tap.md R104). -/
def execCaptureDRTms0 (s : State) : Host.Outcome State Fault Refusal :=
  .next (tapInstr .captureDR false s)

/-- CAPTURE-DR.tms1 (40_tap.md R104). -/
def execCaptureDRTms1 (s : State) : Host.Outcome State Fault Refusal :=
  .next (tapInstr .captureDR true s)

/-- SHIFT-DR.tms0 (40_tap.md R105). -/
def execShiftDRTms0 (s : State) : Host.Outcome State Fault Refusal :=
  .next (tapInstr .shiftDR false s)

/-- SHIFT-DR.tms1 (40_tap.md R105). -/
def execShiftDRTms1 (s : State) : Host.Outcome State Fault Refusal :=
  .next (tapInstr .shiftDR true s)

/-- EXIT1-DR.tms0 (40_tap.md R106). -/
def execExit1DRTms0 (s : State) : Host.Outcome State Fault Refusal :=
  .next (tapInstr .exit1DR false s)

/-- EXIT1-DR.tms1 (40_tap.md R106). -/
def execExit1DRTms1 (s : State) : Host.Outcome State Fault Refusal :=
  .next (tapInstr .exit1DR true s)

/-- PAUSE-DR.tms0 (40_tap.md R107). -/
def execPauseDRTms0 (s : State) : Host.Outcome State Fault Refusal :=
  .next (tapInstr .pauseDR false s)

/-- PAUSE-DR.tms1 (40_tap.md R107). -/
def execPauseDRTms1 (s : State) : Host.Outcome State Fault Refusal :=
  .next (tapInstr .pauseDR true s)

/-- EXIT2-DR.tms0 (40_tap.md R108). -/
def execExit2DRTms0 (s : State) : Host.Outcome State Fault Refusal :=
  .next (tapInstr .exit2DR false s)

/-- EXIT2-DR.tms1 (40_tap.md R108). -/
def execExit2DRTms1 (s : State) : Host.Outcome State Fault Refusal :=
  .next (tapInstr .exit2DR true s)

/-- UPDATE-DR.tms0 (40_tap.md R109). -/
def execUpdateDRTms0 (s : State) : Host.Outcome State Fault Refusal :=
  .next (tapInstr .updateDR false s)

/-- UPDATE-DR.tms1 (40_tap.md R109). -/
def execUpdateDRTms1 (s : State) : Host.Outcome State Fault Refusal :=
  .next (tapInstr .updateDR true s)

/-- SELECT-IR.tms0 (40_tap.md R110). -/
def execSelectIRTms0 (s : State) : Host.Outcome State Fault Refusal :=
  .next (tapInstr .selectIR false s)

/-- SELECT-IR.tms1 (40_tap.md R110). -/
def execSelectIRTms1 (s : State) : Host.Outcome State Fault Refusal :=
  .next (tapInstr .selectIR true s)

/-- CAPTURE-IR.tms0 (40_tap.md R111). -/
def execCaptureIRTms0 (s : State) : Host.Outcome State Fault Refusal :=
  .next (tapInstr .captureIR false s)

/-- CAPTURE-IR.tms1 (40_tap.md R111). -/
def execCaptureIRTms1 (s : State) : Host.Outcome State Fault Refusal :=
  .next (tapInstr .captureIR true s)

/-- SHIFT-IR.tms0 (40_tap.md R112). -/
def execShiftIRTms0 (s : State) : Host.Outcome State Fault Refusal :=
  .next (tapInstr .shiftIR false s)

/-- SHIFT-IR.tms1 (40_tap.md R112). -/
def execShiftIRTms1 (s : State) : Host.Outcome State Fault Refusal :=
  .next (tapInstr .shiftIR true s)

/-- EXIT1-IR.tms0 (40_tap.md R113). -/
def execExit1IRTms0 (s : State) : Host.Outcome State Fault Refusal :=
  .next (tapInstr .exit1IR false s)

/-- EXIT1-IR.tms1 (40_tap.md R113). -/
def execExit1IRTms1 (s : State) : Host.Outcome State Fault Refusal :=
  .next (tapInstr .exit1IR true s)

/-- PAUSE-IR.tms0 (40_tap.md R114). -/
def execPauseIRTms0 (s : State) : Host.Outcome State Fault Refusal :=
  .next (tapInstr .pauseIR false s)

/-- PAUSE-IR.tms1 (40_tap.md R114). -/
def execPauseIRTms1 (s : State) : Host.Outcome State Fault Refusal :=
  .next (tapInstr .pauseIR true s)

/-- EXIT2-IR.tms0 (40_tap.md R115). -/
def execExit2IRTms0 (s : State) : Host.Outcome State Fault Refusal :=
  .next (tapInstr .exit2IR false s)

/-- EXIT2-IR.tms1 (40_tap.md R115). -/
def execExit2IRTms1 (s : State) : Host.Outcome State Fault Refusal :=
  .next (tapInstr .exit2IR true s)

/-- UPDATE-IR.tms0 (40_tap.md R116). -/
def execUpdateIRTms0 (s : State) : Host.Outcome State Fault Refusal :=
  .next (tapInstr .updateIR false s)

/-- UPDATE-IR.tms1 (40_tap.md R116). -/
def execUpdateIRTms1 (s : State) : Host.Outcome State Fault Refusal :=
  .next (tapInstr .updateIR true s)

end Sys2Proof.Machine
end

