-- ==== Sys2Proof/Machine/Fetch.lean ====
section
/-! DEFINITION. What the next step runs: an instruction decoded from where the block stands (20_memory.md R58), or
an action that is no instruction. -/

namespace Sys2Proof.Machine

open Sys2Proof

/-- What the next step runs. -/
inductive Fetched where
  /-- An instruction, and the state with its byte taken from the host stream. -/
  | instr (i : Instr) (s : State)
  /-- No instruction: an adapter action, an ignored header, or a wait; and the state it leaves. -/
  | act (s : State)
  deriving DecidableEq, Repr

/-- The next bus step of the Driver: the row of its current state and the sequence's decision bit (42_tap_driver.md
R146). An index past the sequence, which no run reaches, ends the operation. -/
def fetchBusStep (s : State) : Fetched :=
  match s.currentPair with
  | some p => .instr (decodeTapStep (packTapStep s.drv.tap.state p.tms)) s
  | none => .act (advance s)

/-- A header, once a byte is there (45_command_adapter.md R220, R221, R230). -/
def fetchHeader (s : State) : Fetched :=
  match s.hostRead.drv.inBuf with
  | none => .act s
  | some b =>
    match decodeHeader b with
    | .instr i => .instr i s.hostRead
    | .rejected _ => .act (skipHeader s.hostRead)

/-- An opcode byte, once a byte is there (45_command_adapter.md R224). -/
def fetchOpcode (s : State) : Fetched :=
  match s.hostRead.drv.inBuf with
  | none => .act s
  | some b => .instr (decodeOpcode b) s.hostRead

/-- The Driver's part: a running operation goes on; else the adapter acts (42_tap_driver.md R145, R156). -/
def fetchDriver (s : State) : Fetched :=
  match s.drv.op with
  | .none =>
    match s.drv.adState with
    | .awaitHeader => fetchHeader s
    | .awaitOpcode => fetchOpcode s
    | .run => .act (adapterRun s)
  | _ => fetchBusStep s

/-- The Observer's row on a pending sample (43_tap_observer.md R166), else the Driver's part. -/
def fetch (s : State) : Fetched :=
  match s.obs.samples with
  | b :: _ => .instr (decodeTapStep (packTapStep s.obs.tap.state b.tms)) s
  | [] => fetchDriver s

/-! ## Placing a table word where the next step fetches it -/

/-- A byte at the head of the host stream, taken as a header or as an opcode byte. -/
def placeHostByte (a : AdapterState) (b : Byte) (s : State) : State :=
  { drv := { s.drv with op := .none, idx := 0, adState := a, inBuf := none, hostIn := b :: s.drv.hostIn },
    obs := { s.obs with samples := [] } }

/-- A bus sample at the head of the Observer's samples with its TAP core as given. -/
def placeSample (t : Tap) (b : BusSample) (s : State) : State :=
  { s with obs := { s.obs with tap := t, samples := b :: s.obs.samples } }

/-- A word where its format is fetched: a header or opcode byte on the host stream; a TAP step as the Observer's
state and sample; a JTAG code latched, one step before the UPDATE-DR at which it acts. Entry 5. -/
def placeWord (f : Format) (w : Byte) (s : State) : State :=
  match f with
  | .hostHeader => placeHostByte .awaitHeader w s
  | .pdiOpcode => placeHostByte .awaitOpcode w s
  | .jtagIr =>
    placeSample { s.obs.tap with state := .exit1DR, ir := w.setWidth 4 } ⟨true, false, false⟩ s
  | .tapStep =>
    placeSample { s.obs.tap with state := TapState.ofNumber (w.toNat / 2) } ⟨w.getLsbD 0, false, false⟩ s

/-- A table word placed by the format `tableFormat` reads it in; a word of no format goes to the header position. -/
def placeTableWord (nbits w : Nat) (s : State) : State :=
  match tableFormat nbits w with
  | some f => placeWord f (BitVec.ofNat 8 w) s
  | none => placeWord .hostHeader (BitVec.ofNat 8 w) s

end Sys2Proof.Machine
end

