-- ==== Sys2Proof/Machine/Dispatch.lean ====
section
/-! DEFINITION. One arm per constructor of Instr. -/

namespace Sys2Proof.Machine

open Sys2Proof

/-- The meaning of an instruction. -/
def exec (i : Instr) (s : State) : Host.Outcome State Fault Refusal :=
  match i with
  -- host headers
  | .hdrReset => Sys2Proof.Machine.execHdrReset s
  | .hdrIdCode => Sys2Proof.Machine.execHdrIdCode s
  | .hdrPdi => Sys2Proof.Machine.execHdrPdi s
  | .hdrError => Sys2Proof.Machine.execHdrError s
  -- PDI opcodes
  | .lds spare sizeA sizeB => Sys2Proof.Machine.execLds spare sizeA sizeB s
  | .ld spare mode sizeB => Sys2Proof.Machine.execLd spare mode sizeB s
  | .sts spare sizeA sizeB => Sys2Proof.Machine.execSts spare sizeA sizeB s
  | .st spare mode sizeB => Sys2Proof.Machine.execSt spare mode sizeB s
  | .ldcs spare csAddr => Sys2Proof.Machine.execLdcs spare csAddr s
  | .rept spare unused sizeB => Sys2Proof.Machine.execRept spare unused sizeB s
  | .stcs spare csAddr => Sys2Proof.Machine.execStcs spare csAddr s
  | .key spare unused => Sys2Proof.Machine.execKey spare unused s
  -- JTAG instructions
  | .irIdcode => Sys2Proof.Machine.execIrIdcode s
  | .irPdicom => Sys2Proof.Machine.execIrPdicom s
  | .irBypass => Sys2Proof.Machine.execIrBypass s
  -- TAP steps
  | .resetTms0 => Sys2Proof.Machine.execResetTms0 s
  | .resetTms1 => Sys2Proof.Machine.execResetTms1 s
  | .idleTms0 => Sys2Proof.Machine.execIdleTms0 s
  | .idleTms1 => Sys2Proof.Machine.execIdleTms1 s
  | .selectDRTms0 => Sys2Proof.Machine.execSelectDRTms0 s
  | .selectDRTms1 => Sys2Proof.Machine.execSelectDRTms1 s
  | .captureDRTms0 => Sys2Proof.Machine.execCaptureDRTms0 s
  | .captureDRTms1 => Sys2Proof.Machine.execCaptureDRTms1 s
  | .shiftDRTms0 => Sys2Proof.Machine.execShiftDRTms0 s
  | .shiftDRTms1 => Sys2Proof.Machine.execShiftDRTms1 s
  | .exit1DRTms0 => Sys2Proof.Machine.execExit1DRTms0 s
  | .exit1DRTms1 => Sys2Proof.Machine.execExit1DRTms1 s
  | .pauseDRTms0 => Sys2Proof.Machine.execPauseDRTms0 s
  | .pauseDRTms1 => Sys2Proof.Machine.execPauseDRTms1 s
  | .exit2DRTms0 => Sys2Proof.Machine.execExit2DRTms0 s
  | .exit2DRTms1 => Sys2Proof.Machine.execExit2DRTms1 s
  | .updateDRTms0 => Sys2Proof.Machine.execUpdateDRTms0 s
  | .updateDRTms1 => Sys2Proof.Machine.execUpdateDRTms1 s
  | .selectIRTms0 => Sys2Proof.Machine.execSelectIRTms0 s
  | .selectIRTms1 => Sys2Proof.Machine.execSelectIRTms1 s
  | .captureIRTms0 => Sys2Proof.Machine.execCaptureIRTms0 s
  | .captureIRTms1 => Sys2Proof.Machine.execCaptureIRTms1 s
  | .shiftIRTms0 => Sys2Proof.Machine.execShiftIRTms0 s
  | .shiftIRTms1 => Sys2Proof.Machine.execShiftIRTms1 s
  | .exit1IRTms0 => Sys2Proof.Machine.execExit1IRTms0 s
  | .exit1IRTms1 => Sys2Proof.Machine.execExit1IRTms1 s
  | .pauseIRTms0 => Sys2Proof.Machine.execPauseIRTms0 s
  | .pauseIRTms1 => Sys2Proof.Machine.execPauseIRTms1 s
  | .exit2IRTms0 => Sys2Proof.Machine.execExit2IRTms0 s
  | .exit2IRTms1 => Sys2Proof.Machine.execExit2IRTms1 s
  | .updateIRTms0 => Sys2Proof.Machine.execUpdateIRTms0 s
  | .updateIRTms1 => Sys2Proof.Machine.execUpdateIRTms1 s

end Sys2Proof.Machine
end

