-- ==== Sys2Proof/Machine/DeviceId.lean ====
section
/-! DEFINITION. The Device-ID Decoder, a boundary collaborator: a pure total function (46_device_id.md). -/

namespace Sys2Proof.Machine

open Sys2Proof

/-- A lower-case hexadecimal digit. -/
def hexDigit (n : Nat) : Char := if n < 10 then Char.ofNat (48 + n) else Char.ofNat (87 + n)

/-- The `n` lower hexadecimal digits of a number, leading zeros kept (46_device_id.md R246, R248). -/
def hexDigits : Nat → Nat → List Char
  | 0, _ => []
  | n + 1, v => hexDigits n (v / 16) ++ [hexDigit (v % 16)]

/-- `"0x"` and `n` digits. -/
def hexString (n v : Nat) : String := String.ofList ('0' :: 'x' :: hexDigits n v)

/-- `raw32` from four bytes, the first the most significant (46_device_id.md R246). -/
def assembleId (b0 b1 b2 b3 : Byte) : Word32 := b0 ++ b1 ++ b2 ++ b3

/-- The manufacturer's name, or "INVALID" (46_device_id.md R250). -/
def manufacturerName (t : Config.IdTables) (m : BitVec 11) : String := (t.jedec.lookup m).getD "INVALID"

/-- The part's name, or the hex fallback (46_device_id.md R248, decision D40). -/
def partName (t : Config.IdTables) (p : BitVec 16) : String := (t.part.lookup p).getD (hexString 4 p.toNat)

/-- The result of the decoder (46_device_id.md R245). -/
structure DecodedId where
  hex : String
  manufacturer : String
  version : Nat
  part : String
  deriving DecidableEq, Repr

/-- `decode(bytes[4])` with the lookup tables as an argument (46_device_id.md R245, R249; entry 24). -/
def decodeId (t : Config.IdTables) (b0 b1 b2 b3 : Byte) : DecodedId :=
  let raw := assembleId b0 b1 b2 b3
  { hex := hexString 8 raw.toNat,
    manufacturer := manufacturerName t (idManufacturer raw),
    version := (idVersion raw).toNat,
    part := partName t (idPart raw) }

end Sys2Proof.Machine
end

