-- ==== Sys2Proof/Machine/Mnemonic.lean ====
section
/-! DEFINITION. The Mnemonic Encoder, a collaborator outside the core, as far as 30_encoding.md R88 to R93 gives it:
parsed lines to host command bytes. What the spec leaves open is an argument (`MnemonicParams`). The text of a
line is not parsed here (00_scope.md R4 leaves the encoder's internals out). Entries 25 and 33 to 37. -/

namespace Sys2Proof.Machine

open Sys2Proof

/-- A size suffix (30_encoding.md R88). -/
inductive Suffix where
  | u8 | u16 | u24 | u32
  deriving DecidableEq, Repr

/-- The width a suffix names, in bytes (R88). -/
def Suffix.bytes : Suffix → Nat
  | .u8 => 1
  | .u16 => 2
  | .u24 => 3
  | .u32 => 4

/-- A pointer expression (R90): `*ptr`, `*ptr++`, `ptr`, `ptr++`. -/
inductive PtrExpr where
  | indirect | indirectInc | pointer | pointerInc
  deriving DecidableEq, Repr

/-- The pointer mode of an expression (R90). -/
def PtrExpr.mode : PtrExpr → Nat
  | .indirect => 1
  | .indirectInc => 2
  | .pointer => 3
  | .pointerInc => 4

/-- A control/status register operand (R91, 44_pdi_codec.md R205). -/
inductive CsReg where
  | status | reset | ctrl
  | addr (n : Nat)
  deriving DecidableEq, Repr

/-- The address of a register operand: 0=status, 1=reset, 2=ctrl, or a decimal address (R91). -/
def CsReg.address : CsReg → Nat
  | .status => 0
  | .reset => 1
  | .ctrl => 2
  | .addr n => n

/-- Which of the two known keys (R92). -/
inductive KeyName where
  | nvm | debug
  deriving DecidableEq, Repr

/-- A line of the grammar of R88, its data operands already bytes. -/
inductive Line where
  | lds (s : Suffix) (addr : Nat)
  | sts (s : Suffix) (addr : Nat) (data : List Byte)
  | ld (s : Option Suffix) (p : PtrExpr)
  | st (s : Option Suffix) (p : PtrExpr) (data : List Byte)
  | ldcs (r : CsReg)
  | stcs (r : CsReg) (value : Byte)
  | rept (n : Nat)
  | key (k : KeyName)
  deriving DecidableEq, Repr

/-- The open parameters of the encoder (00_scope.md R6): `MNEMONIC_SUFFIX_MAP` (the sizeA and sizeB of an `lds` and
of an `sts` for a suffix and an address, the sizeB of an `ld` and of an `st` with or without a suffix, the bytes
`repeat <n>` sends), `MNEMONIC_BYTE_ORDER` (the bytes of an address, for a number of bytes and an address), `KEY_NVM` and
`KEY_DEBUG`. That the sizes depend on nothing but these arguments is the model's choice (DESIGN CHOICE, entries 33 and
34), and so is what becomes of an `addressBytes` that does not give exactly the bytes asked for: `encodeLine` refuses the
line (DESIGN CHOICE, entry 33). -/
structure MnemonicParams where
  ldsSizes : Suffix → Nat → Nat × Nat
  stsSizes : Suffix → Nat → Nat × Nat
  ldSize : Option Suffix → Nat
  stSize : Option Suffix → Nat
  repeatBytes : Nat → Nat
  addressBytes : Nat → Nat → List Byte
  keyNvm : List Byte
  keyDebug : List Byte

/-- The causes of a ValidationError a parsed line can have (60_exceptions.md R258; 30_encoding.md R93). -/
inductive ValidationError where
  /-- The wrong number of data operands. -/
  | argumentCount
  /-- A size or register outside its range (R258); also, by the model's choice, an address that does not fit sizeA
  bytes or whose argument bytes are not sizeA many, a repeat count that does not fit its bytes, and a key that is not
  eight bytes (DESIGN CHOICE, entries 33, 35 and 37). -/
  | outOfRange
  /-- A suffixed `ld` or `st` while a REPEAT is active (R93), `u8` counted as a suffix (DESIGN CHOICE, entry 36). -/
  | suffixUnderRepeat
  deriving DecidableEq, Repr

/-- The encoder's answer for a line: the command bytes and the REPEAT then active, or a message. -/
inductive Encoded where
  | bytes (bs : List Byte) (active : Option Nat)
  | invalid (e : ValidationError)
  deriving DecidableEq, Repr

/-- The `n` bytes of a number, least significant first (R92, 20_memory.md R48). -/
def leBytes : Nat → Nat → List Byte
  | 0, _ => []
  | n + 1, v => BitVec.ofNat 8 v :: leBytes n (v / 256)

/-- One `PDI` host command: the header 0x11, the opcode byte, the write bytes (R88); every opcode byte with 0 in its
spare bits (R72, R74). -/
def pdiCommand (i : Instr) (writes : List Byte) : List Byte := 0x11 :: byteOf i :: writes

/-- sizeB of an `ld` or `st` with or without a suffix (R90): an argument for each of the two mnemonics and for each
suffix, so no relation between them is assumed. That it depends on nothing else is DESIGN CHOICE, entry 34. -/
def pointerSize (p : MnemonicParams) (store : Bool) (s : Option Suffix) : Nat :=
  if store then p.stSize s else p.ldSize s

/-- `encode(line)`: bytes or message (R89 to R93, 60_exceptions.md R258). `active` is the count of a `repeat` that no
`ld` or `st` has consumed yet. The model's choices, each DESIGN CHOICE: an address that does not fit the sizeA bytes of
its `lds` or `sts`, or whose `addressBytes` are not sizeA many, is refused (entry 33; R89 gives no such check); a repeat count that does not fit the bytes chosen for
it is refused (entry 35; R92 does not say); `ld.u8` and `st.u8` count as suffixed, and a refused line leaves the pending
repeat as it is (entry 36; 91_not_in_source.md N24); all of these but the suffix refusal answer `outOfRange`, which R258
gives for size, pointer mode and register name alone (entry 37); a line with several faults gets the suffix refusal
before `outOfRange`, and `outOfRange` before `argumentCount` (entry 37; R258 gives no order). -/
def encodeLine (p : MnemonicParams) (active : Option Nat) : Line → Encoded
  | .lds s addr =>
    let (a, b) := p.ldsSizes s addr
    if sizeAOk p a b addr then .bytes (pdiCommand (.lds false a b) (p.addressBytes a addr)) active
    else .invalid .outOfRange
  | .sts s addr data =>
    let (a, b) := p.stsSizes s addr
    if !sizeAOk p a b addr then .invalid .outOfRange
    else if data.length ≠ b then .invalid .argumentCount
    else .bytes (pdiCommand (.sts false a b) (p.addressBytes a addr ++ data)) active
  | .ld s e =>
    if s.isSome ∧ active.isSome then .invalid .suffixUnderRepeat
    else if !sizeOk (pointerSize p false s) then .invalid .outOfRange
    else .bytes (pdiCommand (.ld false e.mode (pointerSize p false s)) []) none
  | .st s e data =>
    if s.isSome ∧ active.isSome then .invalid .suffixUnderRepeat
    else if !sizeOk (pointerSize p true s) then .invalid .outOfRange
    else if data.length ≠ pointerSize p true s * (active.getD 0 + 1) then .invalid .argumentCount
    else .bytes (pdiCommand (.st false e.mode (pointerSize p true s)) data) none
  | .ldcs r =>
    if csAddrOk r.address then .bytes (pdiCommand (.ldcs false r.address) []) active else .invalid .outOfRange
  | .stcs r v =>
    if csAddrOk r.address then .bytes (pdiCommand (.stcs false r.address) [v]) active else .invalid .outOfRange
  | .rept n =>
    if sizeOk (p.repeatBytes n) ∧ n < 256 ^ p.repeatBytes n then
      .bytes (pdiCommand (.rept false 0 (p.repeatBytes n)) (leBytes (p.repeatBytes n) n)) (some n)
    else .invalid .outOfRange
  | .key .nvm => keyCommand p.keyNvm active
  | .key .debug => keyCommand p.keyDebug active
where
  /-- Both sizes are sizes; the address fits, and its bytes are sizeA many (these two DESIGN CHOICE, entry 33). -/
  sizeAOk (p : MnemonicParams) (a b addr : Nat) : Bool :=
    sizeOk a && sizeOk b && decide (addr < 256 ^ a) && decide ((p.addressBytes a addr).length = a)
  /-- `key nvm` and `key debug`: 0xE0 and the eight bytes of the key (R92). A parameter that is no key of eight bytes is
  refused (DESIGN CHOICE, entry 37). -/
  keyCommand (k : List Byte) (active : Option Nat) : Encoded :=
    if k.length = 8 then .bytes (pdiCommand (.key false 0) k) active else .invalid .outOfRange

end Sys2Proof.Machine
end

