-- ==== Sys2Proof/Safety.lean ====
section
/-! DEFINITION. What counts as a legal state and a safe run, in the terms the statements use: the invariants of the
block, the alignment of a Driver's TAP core with its sequence, and the input predicates that
93_implementation_defined.md asks for (U1 to U11). -/

namespace Sys2Proof.Machine

open Sys2Proof

/-! ## Legal states -/

/-- A legal codec (10_state.md R22 to R26, R29, R30): the opcode register holds one of the eight opcodes or IDLE, the
sizes and counters are in range, no slot is pending in IDLE, and a running transaction has a pending slot. -/
structure Codec.Ok (c : Codec) : Prop where
  opcode : c.opcode.toNat < 8 ∨ c.opcode = 0xF
  sizeA : 1 ≤ c.sizeA ∧ c.sizeA ≤ 4
  sizeB : 1 ≤ c.sizeB ∧ c.sizeB ≤ 4
  writes : c.writeRemaining ≤ 8
  reads : c.readRemaining ≤ 4
  idle : c.opcode = 0xF → c.writeRemaining = 0 ∧ c.readRemaining = 0 ∧ c.isNewCommand = false
  running : c.opcode ≠ 0xF → 0 < c.writeRemaining ∨ 0 < c.readRemaining

/-- The adapter, the sequencer and the Driver's codec agree on where the command stands
(45_command_adapter.md R220 to R228, R235). -/
def Driver.AdapterOk (d : Driver) : Prop :=
  d.inBuf = none ∧ (d.op ≠ .none → d.complete = false) ∧
  match d.adState with
  | .awaitHeader => d.pdi.opcode = 0xF ∧ d.op = .none ∧ d.complete = false ∧ d.task = .none
  | .awaitOpcode => d.pdi.opcode = 0xF ∧ d.op = .none ∧ d.complete = false ∧ d.task = .none
  | .run =>
    match d.task with
    | .none => d.op = .none ∧ d.pdi.opcode ≠ 0xF ∧ d.complete = false
    | .finishReset => (d.op = .none ∨ d.op = .reset) ∧ d.pdi.opcode = 0xF
    | .finishIdCode => (d.op = .none ∨ d.op = .readId) ∧ d.pdi.opcode = 0xF
    | .sentOpcode => (d.op = .none ∨ d.op = .pdiTransfer) ∧ d.pdi.opcode ≠ 0xF
    | .sentWrite => (d.op = .none ∨ d.op = .pdiTransfer) ∧ d.pdi.opcode ≠ 0xF ∧ 0 < d.pdi.writeRemaining
    | .sentRead =>
      (d.op = .none ∨ d.op = .pdiTransfer) ∧ d.pdi.opcode ≠ 0xF ∧ d.pdi.writeRemaining = 0 ∧
        0 < d.pdi.readRemaining

/-- A legal state: both codecs legal, the Driver's adapter in agreement with its codec. -/
structure State.Legal (s : State) : Prop where
  drvCodec : s.drv.pdi.Ok
  obsCodec : s.obs.pdi.Ok
  adapter : s.drv.AdapterOk

/-- The fault is a ProtocolError. -/
def PdiFault.isProtocol : PdiFault → Bool
  | .protocolError _ => true
  | .parityError _ _ => false

/-- No ProtocolError has been reported by either instance (44_pdi_codec.md R201). -/
def State.noProtocolError (s : State) : Prop :=
  (∀ r ∈ s.drv.faults, r.fault.isProtocol = false) ∧
  (∀ f u, Event.fault f u ∈ s.obs.events → f.isProtocol = false)

/-! ## Alignment of the Driver (42_tap_driver.md R145 to R149) -/

/-- The TAP state after some pairs driven from `st`. -/
def driveTap (st : TapState) (ps : List Pair) : TapState := ps.foldl (fun t p => tapNext t p.tms) st

/-- The code an operation works under. -/
def DriverOp.code : DriverOp → IrCode
  | .pdiTransfer => 0x7
  | _ => 0x3

/-- The Driver's TAP core is where its sequence says: at rest in IDLE (R145); in the Reset sequence, where its pairs
lead from the state it began in (R147); in the two scanning operations, where their pairs lead from IDLE, or in IDLE
before a data scan that needs no instruction scan (R148 to R152). -/
def Driver.TapAligned (d : Driver) : Prop :=
  match d.op with
  | .none => d.tap.state = .idle
  | .reset => d.idx < resetSeq.length ∧ ∃ st, d.tap.state = driveTap st (resetSeq.take d.idx)
  | op => d.idx < (opSeq op).length ∧
      (d.tap.state = driveTap .idle ((opSeq op).take d.idx) ∨ (d.idx = 9 ∧ d.tap.state = .idle))

/-- Only IDCODE and PDICOM are latched in a Driver (40_tap.md R127, R128), save inside a Reset sequence that has not
reached RESET yet: begun in the middle of an instruction scan, it may pass UPDATE-IR. The code an operation needs is
latched from its data scan on (R150 to R152), and while it is being shifted in, the pending bits are its low bits. -/
def Driver.IrAligned (d : Driver) : Prop :=
  (¬ (d.op = .reset ∧ d.idx < Config.nResetHigh) → d.tap.ir = 0x3 ∨ d.tap.ir = 0x7) ∧
  (d.op.scans = true →
    (9 ≤ d.idx → d.tap.ir = d.op.code) ∧
    (4 ≤ d.idx → d.idx ≤ 8 → ∀ j, j < d.idx - 4 →
      d.tap.irNext.getLsbD (8 - d.idx + j) = d.op.code.getLsbD j))

/-- A Driver in step with its own sequences. -/
def Driver.Aligned (d : Driver) : Prop := d.TapAligned ∧ d.IrAligned

/-! ## Input predicates (93_implementation_defined.md)

A step is regular when what it takes from outside lies in the part of the behaviour the source itself fixes; a run is
regular when each of its steps is. -/

/-- A header byte whose effect the source gives (excludes U1 and U2). -/
def headerRegular (b : Byte) : Bool := b == 0x1E || b == 0x10 || b == 0x11

/-- An opcode byte the documented producer sends (excludes U3 and U4). -/
def opcodeRegular (b : Byte) : Bool := (decodeOpcode b).documented

/-- Not an LD or ST of more than one byte under a pending repeat (excludes U7). -/
def repeatRegular (c : Codec) (b : Byte) : Bool :=
  match decodeOpcode b with
  | .ld _ _ n | .st _ _ n => n == 1 || c.repeatCount == 0
  | _ => true

/-- An opcode byte that a codec of either role is about to accept (excludes U3, U4 and U7). -/
def acceptRegular (c : Codec) (b : Byte) : Bool := opcodeRegular b && repeatRegular c b

/-- A JTAG code the source names (excludes U6). -/
def codeRegular (c : IrCode) : Bool := c == 0x3 || c == 0x7 || c == 0xF

/-- The shift steps of the running scan, after a step taken in a TAP state: a capture begins a scan at 0. -/
def scanShifts (st : TapState) (n : Nat) : Nat :=
  match st with
  | .captureDR | .captureIR => 0
  | .shiftDR | .shiftIR => n + 1
  | _ => n

/-- The sample an Observer would take next is regular: at an entry to UPDATE-DR the scan has had `W(ir)` shifts and,
under PDICOM with an idle codec, an opcode unit that will be accepted is a regular one; at an entry to UPDATE-IR the scan
has had 4 shifts and a named code is latched (excludes U3, U4, U6, U7, U8 and U10). `n` is the number of shift steps the
running scan has had so far: the Observer counts none (43_tap_observer.md R175), so who states the predicate supplies
it, 0 at power-on. Outside a scan any `n` will do, since a capture begins at 0 again. DESIGN CHOICE, entry 38. -/
def sampleRegular (n : Nat) (o : Observer) (b : BusSample) : Bool :=
  match tapNext o.tap.state b.tms with
  | .updateDR =>
    n == width o.tap.ir &&
      (o.tap.ir != 0x7 || o.pdi.opcode != 0xF || !parityOk (top9 o.srTdi) ||
        acceptRegular o.pdi (unitData (top9 o.srTdi)))
  | .updateIR => n == 4 && codeRegular o.tap.irNext
  | _ => true

/-- The Driver's next step takes nothing from the host whose handling the source does not give: a header is regular and
begins in IDLE unless it is `Reset` (U1, U2, U9); an opcode byte is regular and is sent from IDLE (U3, U4, U7, U9); a
slot begins in IDLE, and the byte a write slot takes is not 0x1E (U9, U11). Bytes that a later step will take are judged
there: a `Reset` queued behind a running command is no irregularity. -/
def State.hostRegular (s : State) : Bool :=
  s.drv.op != .none ||
  match s.drv.adState with
  | .awaitHeader => s.hostRead.drv.inBuf.all fun b => headerRegular b && (b == 0x1E || s.drv.tap.state == .idle)
  | .awaitOpcode => s.hostRead.drv.inBuf.all fun b => acceptRegular s.drv.pdi b && s.drv.tap.state == .idle
  | .run =>
    s.drv.task != .none || s.drv.pdi.opcode == 0xF ||
      (s.drv.tap.state == .idle && (s.drv.pdi.nextSlot != .write || s.hostRead.drv.inBuf.all fun b => b != 0x1E))

/-- What the next step takes from outside is regular, in the instance that is due; `n` as in `sampleRegular`. -/
def State.inputsRegular (n : Nat) (s : State) : Bool :=
  match s.obs.samples with
  | b :: _ => sampleRegular n s.obs b
  | [] => s.hostRegular

/-- The count of `sampleRegular` after the next step. -/
def State.shiftsAfter (n : Nat) (s : State) : Nat :=
  match s.obs.samples with
  | _ :: _ => scanShifts s.obs.tap.state n
  | [] => n

/-- The next `k` steps are regular (93_implementation_defined.md: the premise of a claim that a run agrees with the real
block). -/
def runRegular : Nat → Nat → State → Bool
  | 0, _, _ => true
  | k + 1, n, s =>
    s.inputsRegular n &&
      match step s with
      | .next t => runRegular k (s.shiftsAfter n) t
      | _ => false

end Sys2Proof.Machine
end

