-- ==== Sys2Proof/Certificates/Slice0/Obligations.lean ====
section
/-! DEFINITION. The statements for the provers, and the few definitions they are written with. Each docstring names
the rules of spec/ it comes from, and the log entry where it rests on a choice of the model. -/

open Sys2Proof Sys2Proof.Machine

namespace Sys2Proof.Spec

/-- The 32 rows of the transition table, transcribed from 40_tap.md section 2: instruction, state, tms, next state. -/
def tapRows : List (Instr × TapState × Bool × TapState) :=
  [(.resetTms0, .reset, false, .idle), (.resetTms1, .reset, true, .reset),
  (.idleTms0, .idle, false, .idle), (.idleTms1, .idle, true, .selectDR),
  (.selectDRTms0, .selectDR, false, .captureDR), (.selectDRTms1, .selectDR, true, .selectIR),
  (.captureDRTms0, .captureDR, false, .shiftDR), (.captureDRTms1, .captureDR, true, .exit1DR),
  (.shiftDRTms0, .shiftDR, false, .shiftDR), (.shiftDRTms1, .shiftDR, true, .exit1DR),
  (.exit1DRTms0, .exit1DR, false, .pauseDR), (.exit1DRTms1, .exit1DR, true, .updateDR),
  (.pauseDRTms0, .pauseDR, false, .pauseDR), (.pauseDRTms1, .pauseDR, true, .exit2DR),
  (.exit2DRTms0, .exit2DR, false, .shiftDR), (.exit2DRTms1, .exit2DR, true, .updateDR),
  (.updateDRTms0, .updateDR, false, .idle), (.updateDRTms1, .updateDR, true, .selectDR),
  (.selectIRTms0, .selectIR, false, .captureIR), (.selectIRTms1, .selectIR, true, .reset),
  (.captureIRTms0, .captureIR, false, .shiftIR), (.captureIRTms1, .captureIR, true, .exit1IR),
  (.shiftIRTms0, .shiftIR, false, .shiftIR), (.shiftIRTms1, .shiftIR, true, .exit1IR),
  (.exit1IRTms0, .exit1IR, false, .pauseIR), (.exit1IRTms1, .exit1IR, true, .updateIR),
  (.pauseIRTms0, .pauseIR, false, .pauseIR), (.pauseIRTms1, .pauseIR, true, .exit2IR),
  (.exit2IRTms0, .exit2IR, false, .shiftIR), (.exit2IRTms1, .exit2IR, true, .updateIR),
  (.updateIRTms0, .updateIR, false, .idle), (.updateIRTms1, .updateIR, true, .selectDR)]

/-- `k` steps of the machine. -/
def runs (k : Nat) (s : State) : Host.Outcome State Fault Refusal := Host.Core.run Sys2Proof.core k s

/-- The state after an `observe` step from `p` to `n`: `o` is the Observer with the step's own register, code and
codec writes and events; the sample is gone and the transition is reported (R100, R166). -/
def observed (s : State) (rest : List BusSample) (p n : TapState) (o : Observer) : State :=
  { s with obs := { o with tap := { o.tap with state := n }, samples := rest,
                           events := o.events ++ [.stateTransition p n] } }

/-- The bit a Driver drives on TDI in a step from `p` (R146): `sr[0]` in SHIFT-DR, the sequence's code bit in SHIFT-IR,
0 in every other step. -/
def tdiBit (s : State) (p : TapState) : Bool :=
  if p = .shiftDR then s.drv.sr.getLsbD 0
  else if p = .shiftIR then (((opSeq s.drv.op)[s.drv.idx]?).map Pair.tdi).getD false
  else false

/-- The bus step is the last of the running operation's sequence. -/
def lastPairB (s : State) : Bool := decide ((opSeq s.drv.op).length ≤ s.drv.idx + 1)

/-- The state after a Driver's bus step from `p` to `n` with decision bit `t`: `d` is the Driver with the step's own
register and code writes; the three bits are recorded, the target's answer is taken, the transition is reported, and
the sequencer moves on or ends the operation (R100, R146, R154). -/
def driven (s : State) (p n : TapState) (t : Bool) (d : Driver) : State :=
  { s with drv := { d with
      tap := { d.tap with state := n },
      bus := s.drv.bus ++ [⟨t, tdiBit s p, s.nextTdo⟩],
      tdoIn := s.drv.tdoIn.tail,
      events := s.drv.events ++ [.stateTransition p n],
      op := if lastPairB s then .none else s.drv.op,
      idx := if lastPairB s then 0 else s.drv.idx + 1,
      complete := lastPairB s && s.drv.op.scans } }

/-- The codec after `Accept` (R183): the decoded fields, the first-iteration loads, a fresh command; only REPEAT
clears the accumulator; the repeat count stays. -/
def accepted (c : Codec) (op : BitVec 4) (sizeA sizeB writes reads : Nat) : Codec :=
  { opcode := op, sizeA := sizeA, sizeB := sizeB, writeRemaining := writes, readRemaining := reads,
    repeatCount := c.repeatCount, repeatAcc := if op = 5 then 0 else c.repeatAcc, isNewCommand := true }

/-- A Driver that has accepted an opcode and begins to send its byte as the first unit (R224, R225, R152). -/
def opcodeSent (s : State) (byte : Byte) (c : Codec) : State :=
  { s with drv := { s.drv with
      pdi := c, adState := .run, inBuf := none, task := .sentOpcode,
      pdiOut := unit9 byte, op := .pdiTransfer, idx := if s.drv.tap.ir = 0x7 then 9 else 0 } }

/-- An Observer that has accepted an opcode (R183, R204), with its event (R172). -/
def opcodeSeen (s : State) (byte : Byte) (c : Codec) : State :=
  { s with obs := { s.obs with
      pdi := c,
      events := s.obs.events ++ [.pdiOpcode byte c.opcode c.sizeA c.sizeB s.obs.pdi.repeatCount] } }

/-- The codec after `Abort()` (R202). -/
def aborted (c : Codec) : Codec :=
  { opcode := 0xF, sizeA := c.sizeA, sizeB := c.sizeB, writeRemaining := 0, readRemaining := 0,
    repeatCount := 0, repeatAcc := 0, isNewCommand := false }

/-- `CapturedDR` of the Observer under a code (R168): `width` bits of each capture register. -/
def captureOf (s : State) (code : IrCode) : CapturedDR :=
  { instr := code, width := width code, tdi := s.obs.srTdi >>> (32 - width code),
    tdo := s.obs.srTdo >>> (32 - width code) }

/-- A Driver between operations with no bus sample pending, standing at an adapter state. -/
def atRest (s : State) (a : AdapterState) : Prop :=
  s.obs.samples = [] ∧ s.drv.op = .none ∧ s.drv.adState = a ∧ s.drv.inBuf = none

/-- A value of bytes, the first the least significant (R48). -/
def leValue : List Byte → Nat
  | [] => 0
  | b :: bs => b.toNat + 256 * leValue bs

/-- A value of bytes, the first the most significant. -/
def beValue (bs : List Byte) : Nat := bs.foldl (fun v b => 256 * v + b.toNat) 0

/-- Slots fed to a codec one byte each until it is IDLE or the bytes are used up: the codec, and how many `WriteSlot`
and `ReadSlot` calls there were (R193 to R196). -/
def feed : List Byte → Codec → Codec × Nat × Nat
  | [], c => (c, 0, 0)
  | b :: bs, c =>
    if c.opcode = 0xF then (c, 0, 0)
    else
      match c.nextSlot with
      | .write => ((feed bs (c.writeSlot b).1).1, (feed bs (c.writeSlot b).1).2.1 + 1, (feed bs (c.writeSlot b).1).2.2)
      | .read => ((feed bs (c.readSlot b).1).1, (feed bs (c.readSlot b).1).2.1, (feed bs (c.readSlot b).1).2.2 + 1)
      | .none => (c, 0, 0)

/-- Bits shifted into a 32-bit register one after another (R133). -/
def shifted (bits : List Bool) (r : Word32) : Word32 := bits.foldl (fun r b => shiftIn b r) r

end Sys2Proof.Spec

open Sys2Proof.Spec

/-! ## Encoding -/

/-- Decode and encode agree: every well-formed instruction of every format is what its own word decodes to, every
operand at every value its field admits, the spare bits included (30_encoding.md R67, R73, R75, R78). -/
def Obligations.DecodeOfEncodeIsIdentity : Prop :=
  ∀ i : Instr, i.wf = true → decode (encode i) = .instr i

/-- The other direction: a word that decodes to an instruction is that instruction's word, so no bit is dropped and
no two words of a format mean the same (R67, R73, R75, R78; R225 needs the spare bits). -/
def Obligations.EncodeOfDecodeIsIdentity : Prop :=
  ∀ (f : Format) (w : Byte) (i : Instr), decode ⟨f, w⟩ = .instr i → i.wf = true ∧ encode i = ⟨f, w⟩

/-- A few words written out from the tables: headers (R67), opcode bytes and their fields (R73, R181's examples), codes
(R75), TAP steps (R78). -/
def Obligations.WrittenOutWordsDecode : Prop :=
  decodeHeader 0x1E = .instr .hdrReset ∧ decodeHeader 0x10 = .instr .hdrIdCode ∧
  decodeOpcode 0xC0 = .stcs false 0 ∧ decodeOpcode 0x0C = .lds false 4 1 ∧ decodeOpcode 0x64 = .st false 2 1 ∧
  decodeOpcode 0x1E = .lds true 4 3 ∧ decodeOpcode 0xA1 = .rept false 0 2 ∧ decodeOpcode 0xE0 = .key false 0 ∧
  decodeIr 0x7 = .instr .irPdicom ∧ decodeTapStep 0b01001 = .shiftDRTms1

/-! ## A step runs the decoded instruction -/

/-- What the next step runs, by where the block stands (20_memory.md R58; R146, R166, R220, R224): a pending sample's
TAP row; else the running operation's TAP row; else a header or an opcode byte with the byte moved from the host
stream to the buffer. An unassigned header is consumed with no effect (R230). That the Observer goes first is the
model's choice (entry 1). -/
def Obligations.StepRunsTheDecodedInstruction : Prop :=
  (∀ (s : State) (b : BusSample) (rest : List BusSample) (i : Instr), s.obs.samples = b :: rest →
    decodeTapStep (packTapStep s.obs.tap.state b.tms) = i → step s = exec i s) ∧
  (∀ (s : State) (p : Pair) (i : Instr), s.obs.samples = [] → s.drv.op ≠ .none →
    (opSeq s.drv.op)[s.drv.idx]? = some p →
    decodeTapStep (packTapStep s.drv.tap.state p.tms) = i → step s = exec i s) ∧
  (∀ (s : State) (b : Byte) (rest : List Byte) (i : Instr), atRest s .awaitHeader → s.drv.hostIn = b :: rest →
    decodeHeader b = .instr i →
    step s = exec i { s with drv := { s.drv with inBuf := some b, hostIn := rest } }) ∧
  (∀ (s : State) (b : Byte) (rest : List Byte), atRest s .awaitHeader → s.drv.hostIn = b :: rest →
    b ≠ 0x1E → b ≠ 0x10 → b ≠ 0x11 → b ≠ 0x1F →
    step s = .next { s with drv := { s.drv with hostIn := rest } }) ∧
  (∀ (s : State) (b : Byte) (rest : List Byte) (i : Instr), atRest s .awaitOpcode → s.drv.hostIn = b :: rest →
    decodeOpcode b = i →
    step s = exec i { s with drv := { s.drv with inBuf := some b, hostIn := rest } })

/-- The packed word of a state and a bit is read as exactly the table's row (R78). -/
def Obligations.PackedTapWordIsItsRow : Prop :=
  ∀ (i : Instr) (p n : TapState) (t : Bool), (i, p, t, n) ∈ tapRows →
    decodeTapStep (packTapStep p t) = i ∧ tapNext p t = n

/-- On entry to UPDATE-DR the latched JTAG instruction is what runs: the rest of the TAP step is the move before it,
the event and the sample after it (R100, R121). -/
def Obligations.UpdateDrRunsTheLatchedInstruction : Prop :=
  ∀ (s : State) (b : BusSample) (rest : List BusSample) (j i : Instr) (p : TapState),
    s.obs.samples = b :: rest →
    (i, p) ∈ [(Instr.exit1DRTms1, TapState.exit1DR), (.exit2DRTms1, .exit2DR)] →
    decodeIr s.obs.tap.ir = .instr j →
    ∃ t, exec j { s with obs := { s.obs with tap := { s.obs.tap with state := .updateDR } } } = .next t ∧
      exec i s = .next { t with obs := { t.obs with samples := rest,
                                                    events := t.obs.events ++ [.stateTransition p .updateDR] } }

/-! ## TAP steps of an Observer -/

/-- The 22 rows without an action: resetTms0, idleTms0/1, selectDRTms0/1, captureDRTms0/1 (an Observer loads nothing
there, R122), exit1DRTms0, pauseDRTms0/1, exit2DRTms0, updateDRTms0/1, selectIRTms0, captureIRTms0/1, exit1IRTms0,
pauseIRTms0/1, exit2IRTms0, updateIRTms0/1. The state moves as the table says, the sample is taken, the transition is
reported, nothing else changes (R101 to R116, R166). -/
def Obligations.ObserverRowsWithoutAction : Prop :=
  ∀ (s : State) (b : BusSample) (rest : List BusSample) (i : Instr) (p n : TapState) (t : Bool),
    s.obs.samples = b :: rest → (i, p, t, n) ∈ tapRows →
    p ≠ .shiftDR → p ≠ .shiftIR → n ≠ .reset → n ≠ .updateIR → n ≠ .updateDR →
    exec i s = .next (observed s rest p n s.obs)

/-- The rows shiftDRTms0/1 and shiftIRTms0/1: both capture registers, or the pending instruction, take their line's bit from the
top (R105, R112, R119, R167); nothing else changes. -/
def Obligations.ObserverShiftRows : Prop :=
  ∀ (s : State) (b : BusSample) (rest : List BusSample) (i : Instr) (n : TapState) (t : Bool),
    s.obs.samples = b :: rest →
    ((i, .shiftDR, t, n) ∈ tapRows →
      exec i s = .next (observed s rest .shiftDR n { s.obs with
        srTdi := BitVec.ofBool b.tdi ++ s.obs.srTdi.extractLsb' 1 31,
        srTdo := BitVec.ofBool b.tdo ++ s.obs.srTdo.extractLsb' 1 31 })) ∧
    ((i, .shiftIR, t, n) ∈ tapRows →
      exec i s = .next (observed s rest .shiftIR n { s.obs with
        tap := { s.obs.tap with irNext := BitVec.ofBool b.tdi ++ s.obs.tap.irNext.extractLsb' 1 3 } }))

/-- The rows that enter RESET, resetTms1 (the self-loop) and selectIRTms1: IDCODE is latched and the Observer's codec returns to IDLE with
no repeat pending (R117, R174). That its two sizes stay is the model's choice (entry 26). -/
def Obligations.ObserverRowsIntoReset : Prop :=
  ∀ (s : State) (b : BusSample) (rest : List BusSample) (i : Instr) (p : TapState) (t : Bool),
    s.obs.samples = b :: rest → (i, p, t, .reset) ∈ tapRows →
    exec i s = .next (observed s rest p .reset { s.obs with
      tap := { s.obs.tap with ir := 0x3 }, pdi := aborted s.obs.pdi })

/-- The rows that enter UPDATE-IR, exit1IRTms1 and exit2IRTms1, latch the pending bits, whatever was shifted (R120). -/
def Obligations.ObserverRowsIntoUpdateIr : Prop :=
  ∀ (s : State) (b : BusSample) (rest : List BusSample) (i : Instr) (p : TapState) (t : Bool),
    s.obs.samples = b :: rest → (i, p, t, .updateIR) ∈ tapRows →
    exec i s = .next (observed s rest p .updateIR { s.obs with
      tap := { s.obs.tap with ir := s.obs.tap.irNext } })

/-- The rows that enter UPDATE-DR, exit1DRTms1 and exit2DRTms1, under any code but PDICOM: a CapturedDR is emitted, then `IdCode` under IDCODE and
`OtherDR` under every other code, the unnamed ones included; the codec is not involved (R168, R169, R171, R128). That an
unnamed code has a 32-bit register and that the CapturedDR comes first are readings of the model (entries 16 and 22). -/
def Obligations.ObserverRowsIntoUpdateDrOutsidePdicom : Prop :=
  ∀ (s : State) (b : BusSample) (rest : List BusSample) (i : Instr) (p : TapState) (t : Bool),
    s.obs.samples = b :: rest → (i, p, t, .updateDR) ∈ tapRows → s.obs.tap.ir ≠ 0x7 →
    exec i s = .next (observed s rest p .updateDR { s.obs with
      events := s.obs.events ++ [.capturedDR ⟨s.obs.tap.ir, 32, s.obs.srTdi, s.obs.srTdo⟩,
        if s.obs.tap.ir = 0x3 then .idCode s.obs.srTdo
        else .otherDR s.obs.tap.ir s.obs.srTdi s.obs.srTdo] })

/-- The rows that enter UPDATE-DR under PDICOM with the codec IDLE: the TDI unit is an opcode byte, accepted as the
instruction it decodes to if its parity is right, else a ParityError is taken (R170, R199, R204, R256). -/
def Obligations.ObserverPdicomOpcodeUnit : Prop :=
  ∀ (s : State) (b : BusSample) (rest : List BusSample) (i : Instr) (p : TapState) (t : Bool) (u : Unit9),
    s.obs.samples = b :: rest → (i, p, t, .updateDR) ∈ tapRows → s.obs.tap.ir = 0x7 →
    s.obs.pdi.opcode = 0xF → u = s.obs.srTdi.extractLsb' 23 9 →
    (parityOk u = true →
      ∃ v, exec (decodeOpcode (u.extractLsb' 0 8)) { s with obs := { s.obs with
            tap := { s.obs.tap with state := .updateDR },
            events := s.obs.events ++ [.capturedDR (captureOf s 0x7)] } } = .next v ∧
        exec i s = .next (observed s rest p .updateDR v.obs)) ∧
    (parityOk u = false →
      exec i s = .next (observed s rest p .updateDR { s.obs with
        pdi := aborted s.obs.pdi,
        events := s.obs.events ++ [.capturedDR (captureOf s 0x7), .fault (.parityError u .opcode) u] }))

/-- The rows that enter UPDATE-DR under PDICOM in a running transaction: a pending write slot takes the TDI unit, else
the read slot takes the TDO unit; the unit on the other line is dropped unchecked; bad parity aborts, whatever the opcode
register holds (R170, R193, R194, R199, R200, R204, R264). -/
def Obligations.ObserverPdicomSlotUnit : Prop :=
  ∀ (s : State) (b : BusSample) (rest : List BusSample) (i : Instr) (p : TapState) (t : Bool) (u v : Unit9),
    s.obs.samples = b :: rest → (i, p, t, .updateDR) ∈ tapRows → s.obs.tap.ir = 0x7 →
    s.obs.pdi.opcode ≠ 0xF → u = s.obs.srTdi.extractLsb' 23 9 → v = s.obs.srTdo.extractLsb' 23 9 →
    (0 < s.obs.pdi.writeRemaining →
      (parityOk u = true → s.obs.pdi.opcode.toNat < 8 →
        exec i s = .next (observed s rest p .updateDR { s.obs with
          pdi := (s.obs.pdi.writeSlot (u.extractLsb' 0 8)).1,
          events := s.obs.events ++ [.capturedDR (captureOf s 0x7)] ++
            (s.obs.pdi.writeSlot (u.extractLsb' 0 8)).2 })) ∧
      (parityOk u = false → exec i s = .next (observed s rest p .updateDR { s.obs with
        pdi := aborted s.obs.pdi,
        events := s.obs.events ++ [.capturedDR (captureOf s 0x7), .fault (.parityError u .write) u] }))) ∧
    (s.obs.pdi.writeRemaining = 0 →
      (parityOk v = true → s.obs.pdi.opcode.toNat < 8 →
        exec i s = .next (observed s rest p .updateDR { s.obs with
          pdi := (s.obs.pdi.readSlot (v.extractLsb' 0 8)).1,
          events := s.obs.events ++ [.capturedDR (captureOf s 0x7)] ++
            (s.obs.pdi.readSlot (v.extractLsb' 0 8)).2 })) ∧
      (parityOk v = false → exec i s = .next (observed s rest p .updateDR { s.obs with
        pdi := aborted s.obs.pdi,
        events := s.obs.events ++ [.capturedDR (captureOf s 0x7), .fault (.parityError v .read) v] })))

/-- The same rows with an opcode register from 8 to 14, which no rule writes: the good unit of the due slot meets a
dispatch that finds no opcode, and the Observer takes a ProtocolError that records the opcode value and the offending
unit; the codec aborts (R172, R201, R204, R255, R257, R260). -/
def Obligations.ObserverCorruptOpcodeTakesProtocolError : Prop :=
  ∀ (s : State) (b : BusSample) (rest : List BusSample) (i : Instr) (p : TapState) (t : Bool) (u v : Unit9),
    s.obs.samples = b :: rest → (i, p, t, .updateDR) ∈ tapRows → s.obs.tap.ir = 0x7 →
    8 ≤ s.obs.pdi.opcode.toNat → s.obs.pdi.opcode ≠ 0xF →
    u = s.obs.srTdi.extractLsb' 23 9 → v = s.obs.srTdo.extractLsb' 23 9 →
    (0 < s.obs.pdi.writeRemaining → parityOk u = true →
      exec i s = .next (observed s rest p .updateDR { s.obs with
        pdi := aborted s.obs.pdi,
        events := s.obs.events ++ [.capturedDR (captureOf s 0x7), .fault (.protocolError s.obs.pdi.opcode) u] })) ∧
    (s.obs.pdi.writeRemaining = 0 → parityOk v = true →
      exec i s = .next (observed s rest p .updateDR { s.obs with
        pdi := aborted s.obs.pdi,
        events := s.obs.events ++ [.capturedDR (captureOf s 0x7), .fault (.protocolError s.obs.pdi.opcode) v] }))

/-! ## TAP steps of a Driver -/

/-- The 20 rows without an action in a Driver (resetTms0, idleTms0/1, selectDRTms0/1, exit1DRTms0, pauseDRTms0/1,
exit2DRTms0, updateDRTms0/1, selectIRTms0, captureIRTms0/1, exit1IRTms0, pauseIRTms0/1, exit2IRTms0, updateIRTms0/1):
the state moves, the three bits are driven and recorded, the transition is
reported, the sequencer moves on; nothing else changes (R101 to R116, R146). -/
def Obligations.DriverRowsWithoutAction : Prop :=
  ∀ (s : State) (i : Instr) (p n : TapState) (t : Bool),
    s.obs.samples = [] → (i, p, t, n) ∈ tapRows →
    p ≠ .captureDR → p ≠ .shiftDR → p ≠ .shiftIR → n ≠ .reset → n ≠ .updateIR → n ≠ .updateDR →
    exec i s = .next (driven s p n t s.drv)

/-- The rows captureDRTms0/1, shiftDRTms0/1 and shiftIRTms0/1 in a Driver: the register is loaded with the unit under PDICOM and with the fill
otherwise (R122, R132); it shifts toward bit 0 and takes the target's bit at bit 31 (R133); the pending instruction
takes the driven bit (R119). That the fill is 0 is the model's reading (entry 23). -/
def Obligations.DriverCaptureAndShiftRows : Prop :=
  ∀ (s : State) (i : Instr) (n : TapState) (t : Bool), s.obs.samples = [] →
    ((i, .captureDR, t, n) ∈ tapRows →
      exec i s = .next (driven s .captureDR n t { s.drv with
        sr := if s.drv.tap.ir = 0x7 then s.drv.pdiOut.setWidth 32 else 0 })) ∧
    ((i, .shiftDR, t, n) ∈ tapRows →
      exec i s = .next (driven s .shiftDR n t { s.drv with
        sr := BitVec.ofBool s.nextTdo ++ s.drv.sr.extractLsb' 1 31 })) ∧
    ((i, .shiftIR, t, n) ∈ tapRows →
      exec i s = .next (driven s .shiftIR n t { s.drv with
        tap := { s.drv.tap with
          irNext := BitVec.ofBool (tdiBit s .shiftIR) ++ s.drv.tap.irNext.extractLsb' 1 3 } }))

/-- The rows of a Driver that enter RESET (resetTms1, selectIRTms1), UPDATE-IR (exit1IRTms1, exit2IRTms1) or UPDATE-DR
(exit1DRTms1, exit2DRTms1): IDCODE is latched; the pending bits are latched; the
shifted register is committed to `idcode` under IDCODE, its top nine bits to `pdiIn` under PDICOM, nowhere otherwise
(R117, R120, R121, R127, R128). -/
def Obligations.DriverRowsWithEntryAction : Prop :=
  ∀ (s : State) (i : Instr) (p : TapState) (t : Bool), s.obs.samples = [] →
    ((i, p, t, .reset) ∈ tapRows →
      exec i s = .next (driven s p .reset t { s.drv with tap := { s.drv.tap with ir := 0x3 } })) ∧
    ((i, p, t, .updateIR) ∈ tapRows →
      exec i s = .next (driven s p .updateIR t { s.drv with
        tap := { s.drv.tap with ir := s.drv.tap.irNext } })) ∧
    ((i, p, t, .updateDR) ∈ tapRows →
      exec i s = .next (driven s p .updateDR t { s.drv with
        idcode := if s.drv.tap.ir = 0x3 then s.drv.sr else s.drv.idcode,
        pdiIn := if s.drv.tap.ir = 0x7 then s.drv.sr.extractLsb' 23 9 else s.drv.pdiIn }))

/-- The Driver's sequences are the tables of R147, R148 and R149: their decision bits, the code's bits on TDI, their
lengths (R157), and the states they pass, from the states they may start in. -/
def Obligations.DriverSequencesAreTheTables : Prop :=
  (∀ c : IrCode,
    (irScan c).map Pair.tms = [true, true, false, false, false, false, false, true, true] ∧
    (irScan c).map Pair.tdi = [false, false, false, false, c.getLsbD 0, c.getLsbD 1, c.getLsbD 2, c.getLsbD 3, false] ∧
    (List.range 10).map (fun k => driveTap .idle ((irScan c).take k)) =
      [.idle, .selectDR, .selectIR, .captureIR, .shiftIR, .shiftIR, .shiftIR, .shiftIR, .exit1IR, .updateIR]) ∧
  (∀ (w : Nat) (st : TapState), 1 ≤ w → st = .idle ∨ st = .updateIR →
    (drScan w).length = w + 5 ∧
    (drScan w).map Pair.tms =
      [true, false, false] ++ List.replicate (w - 1) false ++ [true, true, false] ∧
    driveTap st ((drScan w).take 1) = .selectDR ∧ driveTap st ((drScan w).take 2) = .captureDR ∧
    (∀ k, 3 ≤ k → k ≤ w + 2 → driveTap st ((drScan w).take k) = .shiftDR) ∧
    driveTap st ((drScan w).take (w + 3)) = .exit1DR ∧ driveTap st ((drScan w).take (w + 4)) = .updateDR ∧
    driveTap st (drScan w) = .idle) ∧
  resetSeq.map Pair.tms = [true, true, true, true, true, false] ∧ (∀ p ∈ resetSeq, p.tdi = false) ∧
  (∀ st : TapState, driveTap st resetSeq = .idle) ∧
  opSeq .reset = resetSeq ∧ opSeq .readId = irScan 0x3 ++ drScan 32 ∧ opSeq .pdiTransfer = irScan 0x7 ++ drScan 9

/-- R124: the bits 0,1,1,0,0,0,1,1 from RESET visit the nine states the rule lists, UPDATE-IR once and UPDATE-DR never;
from every state five decision bits of 1 end in RESET; and the least number of them that does is the rule's, state by
state, so four do not suffice from the six states with 5. -/
def Obligations.FiveHighStepsReachReset : Prop :=
  (List.range 9).map (fun k => driveTap .reset
      (([false, true, true, false, false, false, true, true].map (fun t => ⟨t, false⟩)).take k)) =
    [.reset, .idle, .selectDR, .selectIR, .captureIR, .shiftIR, .shiftIR, .exit1IR, .updateIR] ∧
  (∀ st : TapState, driveTap st (List.replicate 5 ⟨true, false⟩) = .reset) ∧
  (∀ (st : TapState) (k : Nat),
    (st, k) ∈ [(TapState.reset, 0), (.selectIR, 1), (.selectDR, 2), (.idle, 3), (.updateDR, 3), (.updateIR, 3),
      (.exit1DR, 4), (.exit2DR, 4), (.exit1IR, 4), (.exit2IR, 4), (.captureDR, 5), (.shiftDR, 5), (.pauseDR, 5),
      (.captureIR, 5), (.shiftIR, 5), (.pauseIR, 5)] →
    driveTap st (List.replicate k ⟨true, false⟩) = .reset ∧
      ∀ j, j < k → driveTap st (List.replicate j ⟨true, false⟩) ≠ .reset)

/-- An Observer that sees five samples with tms 1 is in RESET with IDCODE latched and its codec IDLE with nothing
pending, from any state whatever (R124, R174, R290). -/
def Obligations.ObserverSynchronisesOnFiveHighSamples : Prop :=
  ∀ (s : State) (b0 b1 b2 b3 b4 : BusSample) (rest : List BusSample),
    s.obs.samples = b0 :: b1 :: b2 :: b3 :: b4 :: rest →
    b0.tms = true → b1.tms = true → b2.tms = true → b3.tms = true → b4.tms = true →
    ∃ t, runs 5 s = .next t ∧ t.obs.tap.state = .reset ∧ t.obs.tap.ir = 0x3 ∧
      t.obs.pdi.opcode = 0xF ∧ t.obs.pdi.writeRemaining = 0 ∧ t.obs.pdi.readRemaining = 0 ∧
      t.obs.pdi.repeatCount = 0 ∧ t.obs.samples = rest ∧ t.drv = s.drv

/-! ## PDI opcodes -/

/-- LDS and STS in a Driver: the counters of the two direct-address opcodes, the byte on its way to the target as a
unit with good parity, an instruction scan first unless PDICOM is latched; nothing else changes (R184, R186, R183,
R225, R150, R152). -/
def Obligations.DriverAcceptsDirectOpcodes : Prop :=
  ∀ (s : State) (x : Bool) (a b : Nat), s.obs.samples = [] → sizeOk a = true → sizeOk b = true →
    exec (.lds x a b) s =
      .next (opcodeSent s (encode (.lds x a b)).word (accepted s.drv.pdi 0 a b a b)) ∧
    exec (.sts x a b) s =
      .next (opcodeSent s (encode (.sts x a b)).word (accepted s.drv.pdi 2 a b (a + b) 0))

/-- LD and ST in a Driver: one iteration of `sizeB` slots; the mode enters no count; the pending repeat count waits
(R185, R187, R183). -/
def Obligations.DriverAcceptsPointerOpcodes : Prop :=
  ∀ (s : State) (x : Bool) (m b : Nat), s.obs.samples = [] → sizeOk m = true → sizeOk b = true →
    exec (.ld x m b) s =
      .next (opcodeSent s (encode (.ld x m b)).word (accepted s.drv.pdi 1 m b 0 b)) ∧
    exec (.st x m b) s =
      .next (opcodeSent s (encode (.st x m b)).word (accepted s.drv.pdi 3 m b b 0))

/-- LDCS and STCS in a Driver: one slot; the size fields are computed from the address bits (R188, R190, R71). -/
def Obligations.DriverAcceptsControlOpcodes : Prop :=
  ∀ (s : State) (x : Bool) (c : Nat), s.obs.samples = [] → csAddrOk c = true →
    exec (.ldcs x c) s =
      .next (opcodeSent s (encode (.ldcs x c)).word (accepted s.drv.pdi 4 (c / 4 + 1) (c % 4 + 1) 0 1)) ∧
    exec (.stcs x c) s =
      .next (opcodeSent s (encode (.stcs x c)).word (accepted s.drv.pdi 6 (c / 4 + 1) (c % 4 + 1) 1 0))

/-- REPEAT and KEY in a Driver: `sizeB` and eight write slots; REPEAT clears its accumulator; the unused bits go out
with the byte (R189, R191, R72). -/
def Obligations.DriverAcceptsRepeatAndKey : Prop :=
  (∀ (s : State) (x : Bool) (u b : Nat), s.obs.samples = [] → u ≤ 3 → sizeOk b = true →
    exec (.rept x u b) s =
      .next (opcodeSent s (encode (.rept x u b)).word (accepted s.drv.pdi 5 (u + 1) b b 0))) ∧
  (∀ (s : State) (x : Bool) (u : Nat), s.obs.samples = [] → u ≤ 15 →
    exec (.key x u) s =
      .next (opcodeSent s (encode (.key x u)).word (accepted s.drv.pdi 7 (u / 4 + 1) (u % 4 + 1) 8 0)))

/-- The eight opcodes in an Observer: the same decode and the same loads, an event, and nothing else (R183, R184 to
R191, R204). -/
def Obligations.ObserverAcceptsOpcodes : Prop :=
  ∀ (s : State) (e : BusSample) (rest : List BusSample) (x : Bool) (a b c u k : Nat),
    s.obs.samples = e :: rest → sizeOk a = true → sizeOk b = true → c ≤ 15 → u ≤ 3 → k ≤ 15 →
    exec (.lds x a b) s = .next (opcodeSeen s (encode (.lds x a b)).word (accepted s.obs.pdi 0 a b a b)) ∧
    exec (.ld x a b) s = .next (opcodeSeen s (encode (.ld x a b)).word (accepted s.obs.pdi 1 a b 0 b)) ∧
    exec (.sts x a b) s = .next (opcodeSeen s (encode (.sts x a b)).word (accepted s.obs.pdi 2 a b (a + b) 0)) ∧
    exec (.st x a b) s = .next (opcodeSeen s (encode (.st x a b)).word (accepted s.obs.pdi 3 a b b 0)) ∧
    exec (.ldcs x c) s =
      .next (opcodeSeen s (encode (.ldcs x c)).word (accepted s.obs.pdi 4 (c / 4 + 1) (c % 4 + 1) 0 1)) ∧
    exec (.rept x u b) s = .next (opcodeSeen s (encode (.rept x u b)).word (accepted s.obs.pdi 5 (u + 1) b b 0)) ∧
    exec (.stcs x c) s =
      .next (opcodeSeen s (encode (.stcs x c)).word (accepted s.obs.pdi 6 (c / 4 + 1) (c % 4 + 1) 1 0)) ∧
    exec (.key x k) s =
      .next (opcodeSeen s (encode (.key x k)).word (accepted s.obs.pdi 7 (k / 4 + 1) (k % 4 + 1) 8 0))

/-! ## JTAG instructions -/

/-- The three JTAG instructions in a Driver: IDCODE commits all 32 bits, PDICOM the top nine, BYPASS nothing (R121,
R125 to R127). That executing a code means its action at UPDATE-DR is the model's choice (entry 6). -/
def Obligations.DriverJtagInstructionsCommit : Prop :=
  ∀ s : State, s.obs.samples = [] →
    exec .irIdcode s = .next { s with drv := { s.drv with idcode := s.drv.sr } } ∧
    exec .irPdicom s = .next { s with drv := { s.drv with pdiIn := s.drv.sr.extractLsb' 23 9 } } ∧
    exec .irBypass s = .next s

/-- IDCODE and BYPASS in an Observer emit a 32-bit CapturedDR and the event of R169 or R171; PDICOM with an idle codec
and a bad unit takes a ParityError (R168 to R171, R204). -/
def Obligations.ObserverJtagInstructionsDeliver : Prop :=
  ∀ (s : State) (b : BusSample) (rest : List BusSample), s.obs.samples = b :: rest →
    exec .irIdcode s = .next { s with obs := { s.obs with
      events := s.obs.events ++ [.capturedDR (captureOf s 0x3), .idCode s.obs.srTdo] } } ∧
    exec .irBypass s = .next { s with obs := { s.obs with
      events := s.obs.events ++ [.capturedDR (captureOf s 0xF), .otherDR 0xF s.obs.srTdi s.obs.srTdo] } } ∧
    (s.obs.pdi.opcode = 0xF → parityOk (s.obs.srTdi.extractLsb' 23 9) = false →
      exec .irPdicom s = .next { s with obs := { s.obs with
        pdi := aborted s.obs.pdi,
        events := s.obs.events ++ [.capturedDR (captureOf s 0x7),
          .fault (.parityError (s.obs.srTdi.extractLsb' 23 9) .opcode) (s.obs.srTdi.extractLsb' 23 9)] } })

/-! ## Host headers and the adapter -/

/-- The four headers: `Reset` aborts the codec and begins the Reset sequence; `IDCode` begins a Read-ID, with an
instruction scan unless IDCODE is latched, and leaves the codec alone; `PDI` waits for the opcode byte; `Error` has no
effect (R222, R223, R224, R229, R150). -/
def Obligations.HeadersBeginTheirCommands : Prop :=
  ∀ s : State,
    exec .hdrReset s = .next { s with drv := { s.drv with
      adState := .run, inBuf := none, pdi := aborted s.drv.pdi, op := .reset, idx := 0, task := .finishReset } } ∧
    exec .hdrIdCode s = .next { s with drv := { s.drv with
      adState := .run, inBuf := none, op := .readId, idx := if s.drv.tap.ir = 0x3 then 9 else 0,
      task := .finishIdCode } } ∧
    exec .hdrPdi s = .next { s with drv := { s.drv with adState := .awaitOpcode, inBuf := none } } ∧
    exec .hdrError s = .next { s with drv := { s.drv with adState := .awaitHeader, inBuf := none } }

/-- While the host has no byte to give, an adapter that waits for one does nothing: at a header, at an opcode byte and
at a write slot (R221, R226). -/
def Obligations.AdapterWaitsForTheHost : Prop :=
  ∀ s : State, s.drv.hostIn = [] →
    (atRest s .awaitHeader → step s = .next s) ∧
    (atRest s .awaitOpcode → step s = .next s) ∧
    (atRest s .run → s.drv.task = .none → s.drv.pdi.opcode ≠ 0xF → 0 < s.drv.pdi.writeRemaining →
      step s = .next s)

/-- A due write slot takes exactly one host byte, whatever its value, and sends it as a unit; a due read slot takes
none and sends the fill (R226, R227, R153, R232). -/
def Obligations.AdapterStartsTheDueSlot : Prop :=
  ∀ s : State, atRest s .run → s.drv.task = .none → s.drv.pdi.opcode ≠ 0xF →
    (∀ (d : Byte) (rest : List Byte), 0 < s.drv.pdi.writeRemaining → s.drv.hostIn = d :: rest →
      step s = .next { s with drv := { s.drv with
        hostIn := rest, task := .sentWrite, pdiOut := unit9 d, op := .pdiTransfer,
        idx := if s.drv.tap.ir = 0x7 then 9 else 0 } }) ∧
    (s.drv.pdi.writeRemaining = 0 → 0 < s.drv.pdi.readRemaining →
      step s = .next { s with drv := { s.drv with
        task := .sentRead, pdiOut := 0x000, op := .pdiTransfer, idx := if s.drv.tap.ir = 0x7 then 9 else 0 } })

/-- The end of an outbound unit, whatever unit came back, which is dropped unchecked: after the opcode byte the codec is
untouched and the adapter stands at its loop test (R225, R200); after a write byte, the byte sent counts in the codec,
and the command ends when the codec is IDLE (R193, R200, R226, R228). -/
def Obligations.FinishedWriteSlotCounts : Prop :=
  ∀ s : State, atRest s .run →
    (s.drv.task = .sentOpcode →
      step s = .next { s with drv := { s.drv with task := .none, complete := false } }) ∧
    (s.drv.task = .sentWrite → s.drv.pdi.opcode.toNat < 8 →
      step s = .next { s with drv := { s.drv with
        task := .none, complete := false, pdi := (s.drv.pdi.writeSlot (s.drv.pdiOut.extractLsb' 0 8)).1,
        adState := if (s.drv.pdi.writeSlot (s.drv.pdiOut.extractLsb' 0 8)).1.opcode = 0xF then .awaitHeader
          else .run } })

/-- A finished read slot: a good unit counts in the codec and its byte goes to the host at once; a bad one takes a
ParityError, even with a corrupt opcode register, since parity is checked first: the codec aborts, nothing is written,
the fault is reported with the unit, the adapter awaits a header and the TAP keeps its state (R194, R199, R227, R233, R260, R264). -/
def Obligations.FinishedReadSlotDeliversOrFaults : Prop :=
  ∀ s : State, atRest s .run → s.drv.task = .sentRead →
    (parityOk s.drv.pdiIn = true → s.drv.pdi.opcode.toNat < 8 →
      step s = .next { s with drv := { s.drv with
        task := .none, complete := false, pdi := (s.drv.pdi.readSlot (s.drv.pdiIn.extractLsb' 0 8)).1,
        hostOut := s.drv.hostOut ++ [s.drv.pdiIn.extractLsb' 0 8],
        adState := if (s.drv.pdi.readSlot (s.drv.pdiIn.extractLsb' 0 8)).1.opcode = 0xF then .awaitHeader
          else .run } }) ∧
    (parityOk s.drv.pdiIn = false →
      step s = .next { s with drv := { s.drv with
        task := .none, complete := false, pdi := aborted s.drv.pdi, adState := .awaitHeader,
        faults := s.drv.faults ++ [⟨.parityError s.drv.pdiIn .read, s.drv.pdiIn⟩] } })

/-- The dispatch that finds no opcode takes a ProtocolError with the same recovery (R201, R257, R260), in a finished
write slot of a Driver and in a finished read slot whose unit passed the parity check that comes first (R264). The report
carries the unit of the failing slot (R233); that this is the unit sent in a write slot is the model's reading
(entry 21). -/
def Obligations.CorruptOpcodeTakesProtocolError : Prop :=
  ∀ s : State, atRest s .run → 8 ≤ s.drv.pdi.opcode.toNat →
    (s.drv.task = .sentWrite ∨ (s.drv.task = .sentRead ∧ parityOk s.drv.pdiIn = true)) →
    step s = .next { s with drv := { s.drv with
      task := .none, complete := false, pdi := aborted s.drv.pdi, adState := .awaitHeader,
      faults := s.drv.faults ++ [⟨.protocolError s.drv.pdi.opcode,
        if s.drv.task = .sentWrite then s.drv.pdiOut else s.drv.pdiIn⟩] } }

/-- The end of `IDCode`: four bytes of the committed word, most significant first (R223, R47). -/
def Obligations.IdCodeRespondsMostSignificantFirst : Prop :=
  ∀ s : State, atRest s .run → s.drv.task = .finishIdCode →
    step s = .next { s with drv := { s.drv with
      task := .none, complete := false, adState := .awaitHeader,
      hostOut := s.drv.hostOut ++ [s.drv.idcode.extractLsb' 24 8, s.drv.idcode.extractLsb' 16 8,
        s.drv.idcode.extractLsb' 8 8, s.drv.idcode.extractLsb' 0 8] } }

/-! ## Whole commands -/

/-- The `Reset` command, from its header to its response, in eight steps of the machine (one takes the header, six are
bus steps, one writes the response): from any TAP state the TAP ends in IDLE with IDCODE latched, the codec is cleared
but for its sizes, one byte 0x01 is written, the six decision bits are 1,1,1,1,1,0; from the rest states IDLE and RESET
no data register changes (R222, R147, R281). -/
def Obligations.ResetCommandResynchronises : Prop :=
  ∀ (s : State) (rest : List Byte), atRest s .awaitHeader → s.drv.hostIn = 0x1E :: rest →
    ∃ t, runs 8 s = .next t ∧
      t.drv.tap.state = .idle ∧ t.drv.tap.ir = 0x3 ∧ t.drv.pdi = aborted s.drv.pdi ∧
      t.drv.adState = .awaitHeader ∧ t.drv.inBuf = none ∧ t.drv.op = .none ∧ t.drv.complete = false ∧
      t.drv.hostIn = rest ∧ t.drv.hostOut = s.drv.hostOut ++ [0x01] ∧ t.drv.faults = s.drv.faults ∧
      t.drv.pdiOut = s.drv.pdiOut ∧
      t.drv.bus.map BusSample.tms = s.drv.bus.map BusSample.tms ++ [true, true, true, true, true, false] ∧
      t.obs = s.obs ∧
      (s.drv.tap.state = .idle ∨ s.drv.tap.state = .reset →
        t.drv.tap.irNext = s.drv.tap.irNext ∧ t.drv.sr = s.drv.sr ∧ t.drv.pdiIn = s.drv.pdiIn ∧
          t.drv.idcode = s.drv.idcode)

/-- One PDICOM transfer from IDLE, with the instruction latched fourteen bus steps, else an instruction scan first and
twenty-three in all: the nine TDO bits of the data scan's shift steps are the unit received, first bit least
significant; the nine TDI bits are the unit sent, least significant first, with 0 around them, after the code's four bits
where it is scanned in; the TAP is back in IDLE under PDICOM and `complete` is raised (R148, R149, R150, R152, R154, R50,
R134). That the index of a skipped instruction scan is 9 is the model's choice (entry 8). -/
def Obligations.PdiTransferExchangesOneUnit : Prop :=
  ∀ (s : State) (lead bits tail more : List Bool),
    s.obs.samples = [] → s.drv.op = .pdiTransfer → s.drv.tap.state = .idle →
    (s.drv.idx = 9 ∧ s.drv.tap.ir = 0x7 ∧ lead.length = 3) ∨ (s.drv.idx = 0 ∧ lead.length = 12) →
    bits.length = 9 → tail.length = 2 → s.drv.tdoIn = lead ++ bits ++ tail ++ more →
    ∃ t, runs (lead.length + 11) s = .next t ∧ t.drv.op = .none ∧ t.drv.complete = true ∧
      t.drv.tap.state = .idle ∧ t.drv.tap.ir = 0x7 ∧ t.drv.tdoIn = more ∧
      (∀ k, k < 9 → t.drv.pdiIn.getLsbD k = bits.getD k false) ∧
      t.drv.bus.map BusSample.tms =
        s.drv.bus.map BusSample.tms ++ ((opSeq .pdiTransfer).drop s.drv.idx).map Pair.tms ∧
      t.drv.bus.map BusSample.tdi = s.drv.bus.map BusSample.tdi ++
        (if s.drv.idx = 9 then [] else [false, false, false, false, true, true, true, false, false]) ++
        [false, false, false] ++ (List.range 9).map (fun k => s.drv.pdiOut.getLsbD k) ++ [false, false] ∧
      t.drv.pdi = s.drv.pdi ∧ t.drv.hostOut = s.drv.hostOut ∧ t.drv.idcode = s.drv.idcode ∧ t.obs = s.obs

/-- The `IDCode` command from IDLE, 37 bus steps with IDCODE latched, else an instruction scan first and 46 in all: the
32 TDO bits of the data scan's shift steps come back as four bytes, most significant first (R223, R150, R151, R125, R47,
R157). Two further steps of the machine take the header and write the response (entry 10). -/
def Obligations.IdCodeCommandReturnsTheCapturedWord : Prop :=
  ∀ (s : State) (lead tail more : List Bool) (w : Word32) (rest : List Byte),
    atRest s .awaitHeader → s.drv.hostIn = 0x10 :: rest → s.drv.tap.state = .idle →
    (s.drv.tap.ir = 0x3 ∧ lead.length = 3) ∨ (s.drv.tap.ir ≠ 0x3 ∧ lead.length = 12) → tail.length = 2 →
    s.drv.tdoIn = lead ++ (List.range 32).map (fun k => w.getLsbD k) ++ tail ++ more →
    ∃ t, runs (lead.length + 36) s = .next t ∧ t.drv.idcode = w ∧ t.drv.adState = .awaitHeader ∧
      t.drv.hostIn = rest ∧
      t.drv.hostOut = s.drv.hostOut ++
        [w.extractLsb' 24 8, w.extractLsb' 16 8, w.extractLsb' 8 8, w.extractLsb' 0 8] ∧
      t.drv.bus.length = s.drv.bus.length + lead.length + 34 ∧ t.drv.tdoIn = more ∧
      t.drv.tap.state = .idle ∧ t.drv.tap.ir = 0x3 ∧
      t.drv.pdi = s.drv.pdi ∧ t.drv.faults = s.drv.faults ∧ t.obs = s.obs

/-- `n` bits shifted into a 32-bit register stand at its top in the order received, first bit lowest, and what was there
has moved down by `n` (R133, R134, R138). -/
def Obligations.ShiftedBitsStandAtTheTopInOrder : Prop :=
  ∀ (bits : List Bool) (r : Word32), bits.length ≤ 32 →
    (∀ k, k < bits.length → (shifted bits r).getLsbD (32 - bits.length + k) = bits.getD k false) ∧
    (∀ k, k < 32 - bits.length → (shifted bits r).getLsbD k = r.getLsbD (k + bits.length))

/-! ## The codec -/

/-- Taking a fault: `Abort()` clears the transaction, the repeat count, the accumulator and the tag; both sizes stay, and
the TAP core and the registers of either instance stay. A Driver reports the fault's recorded value with the unit that
failed and awaits a header; an Observer emits both (R202, R233, R260, R262, R172). -/
def Obligations.TakingAFaultAbortsAndReports : Prop :=
  ∀ (s : State) (f : PdiFault) (u : Unit9),
    raise .driver f u s = { s with drv := { s.drv with
      pdi := aborted s.drv.pdi, adState := .awaitHeader, faults := s.drv.faults ++ [⟨f, u⟩] } } ∧
    raise .observer f u s = { s with obs := { s.obs with
      pdi := aborted s.obs.pdi, events := s.obs.events ++ [.fault f u] } }

/-- `NextSlot()`: a write slot while any is left, else a read slot while any is left, else none (R195). -/
def Obligations.WriteSlotsComeBeforeReadSlots : Prop :=
  ∀ c : Codec,
    (0 < c.writeRemaining → c.nextSlot = .write) ∧
    (c.writeRemaining = 0 → 0 < c.readRemaining → c.nextSlot = .read) ∧
    (c.writeRemaining = 0 → c.readRemaining = 0 → c.nextSlot = .none)

/-- `Settle()`: nothing while a slot is left; for LD and ST under a pending count one more iteration, the count one
less, the tag cleared; else the transaction ends with PdiDone, and a REPEAT's end stores its count (R196). -/
def Obligations.SettleReloadsOrEnds : Prop :=
  ∀ c : Codec,
    (0 < c.writeRemaining ∨ 0 < c.readRemaining → c.settle = (c, [])) ∧
    (c.writeRemaining = 0 → c.readRemaining = 0 →
      (c.opcode = 1 → c.repeatCount ≠ 0 → c.settle =
        ({ c with repeatCount := c.repeatCount - 1, isNewCommand := false, readRemaining := c.sizeB }, [])) ∧
      (c.opcode = 3 → c.repeatCount ≠ 0 → c.settle =
        ({ c with repeatCount := c.repeatCount - 1, isNewCommand := false, writeRemaining := c.sizeB }, [])) ∧
      ((c.opcode = 1 ∨ c.opcode = 3) → c.repeatCount = 0 → c.settle =
        ({ c with opcode := 0xF, isNewCommand := false }, [.pdiDone c.opcode])) ∧
      (c.opcode = 5 → c.settle =
        ({ c with repeatCount := byterev c.sizeB c.repeatAcc, opcode := 0xF, isNewCommand := false },
          [.pdiDone c.opcode])) ∧
      (c.opcode ≠ 1 → c.opcode ≠ 3 → c.opcode ≠ 5 → c.settle =
        ({ c with opcode := 0xF, isNewCommand := false }, [.pdiDone c.opcode])))

/-- The slots: a write slot counts down, accumulates only under REPEAT and reports its byte with the tag before it
settles; a read slot counts down and reports (R193, R194). -/
def Obligations.SlotsCountDownThenSettle : Prop :=
  ∀ (c : Codec) (b : Byte),
    (c.opcode ≠ 5 → c.writeSlot b =
      (({ c with writeRemaining := c.writeRemaining - 1 } : Codec).settle.1,
        .pdiWrite b c.isNewCommand :: ({ c with writeRemaining := c.writeRemaining - 1 } : Codec).settle.2)) ∧
    (c.opcode = 5 → c.writeSlot b =
      (({ c with writeRemaining := c.writeRemaining - 1,
                 repeatAcc := (c.repeatAcc <<< 8) ||| b.setWidth 32 } : Codec).settle.1,
        .pdiWrite b c.isNewCommand ::
          ({ c with writeRemaining := c.writeRemaining - 1,
                    repeatAcc := (c.repeatAcc <<< 8) ||| b.setWidth 32 } : Codec).settle.2)) ∧
    c.readSlot b =
      (({ c with readRemaining := c.readRemaining - 1 } : Codec).settle.1,
        .pdiRead b c.isNewCommand :: ({ c with readRemaining := c.readRemaining - 1 } : Codec).settle.2)

/-- The REPEAT operand: one to four bytes accumulate with the first byte most significant, and the reversal across the
bytes sent makes the first byte the least significant of the count, the bytes above them 0 (R197, R48). -/
def Obligations.RepeatOperandIsLeastSignificantFirst : Prop :=
  ∀ bs : List Byte, 1 ≤ bs.length → bs.length ≤ 4 →
    (bs.foldl accumulate 0).toNat = beValue bs ∧
    (byterev bs.length (bs.foldl accumulate 0)).toNat = leValue bs

/-- Totals: from the accept of any opcode byte under any pending count, the slots run until the codec is IDLE again are
exactly the counts of the table, and the repeat count afterwards is 0 for LD and ST, the captured value for REPEAT, and
unchanged for the other five (R207, R182, R197). -/
def Obligations.TransactionTotalsMatchTheCountTable : Prop :=
  ∀ (s t : State) (byte : Byte) (bs : List Byte) (w r : Nat),
    s.obs.samples = [] → s.drv.pdi.opcode = 0xF → exec (decodeOpcode byte) s = .next t →
    counts byte s.drv.pdi.repeatCount.toNat = (w, r) → w + r ≤ bs.length →
    (feed bs t.drv.pdi).2 = (w, r) ∧ (feed bs t.drv.pdi).1.opcode = 0xF ∧
    (feed bs t.drv.pdi).1.repeatCount.toNat =
      (match opField byte with
        | 1 => 0
        | 3 => 0
        | 5 => leValue (bs.take w)
        | _ => s.drv.pdi.repeatCount.toNat)

/-- The count table, row by row, over the naturals (R182). -/
def Obligations.CountTableRows : Prop :=
  ∀ (x : Bool) (a b c u k r : Nat), sizeOk a = true → sizeOk b = true → c ≤ 15 → u ≤ 3 → k ≤ 15 →
    counts (encode (.lds x a b)).word r = (a, b) ∧
    counts (encode (.ld x a b)).word r = (0, b * (r + 1)) ∧
    counts (encode (.sts x a b)).word r = (a + b, 0) ∧
    counts (encode (.st x a b)).word r = (b * (r + 1), 0) ∧
    counts (encode (.ldcs x c)).word r = (0, 1) ∧
    counts (encode (.stcs x c)).word r = (1, 0) ∧
    counts (encode (.rept x u b)).word r = (b, 0) ∧
    counts (encode (.key x k)).word r = (8, 0)

/-- Units and parity: a packed byte is the byte under its parity bit, checks and unpacks (R135); a unit's byte is its low
eight bits, and it checks when bit 8 is their XOR, that is when the XOR of all nine bits is 0; flipping any one of the
nine bits of a good unit is seen, flipping any two is not (R136). -/
def Obligations.ParityDetectsEverySingleBitFlip : Prop :=
  (∀ b : Byte, unit9 b = BitVec.ofBool (((List.range 8).map (fun k => b.getLsbD k)).foldl xor false) ++ b ∧
    parityOk (unit9 b) = true ∧ unitData (unit9 b) = b) ∧
  (∀ u : Unit9, unitData u = u.extractLsb' 0 8 ∧
    (parityOk u = true ↔ u.getLsbD 8 = ((List.range 8).map (fun k => u.getLsbD k)).foldl xor false) ∧
    (parityOk u = true ↔ ((List.range 9).map (fun k => u.getLsbD k)).foldl xor false = false)) ∧
  (∀ (u : Unit9) (k : Nat), k < 9 → parityOk u = true → parityOk (u ^^^ (1#9 <<< k)) = false) ∧
  (∀ (u : Unit9) (j k : Nat), j < 9 → k < 9 → j ≠ k → parityOk u = true →
    parityOk (u ^^^ (1#9 <<< j) ^^^ (1#9 <<< k)) = true)

/-! ## Invariants -/

/-- The state after reset is legal and has reported no fault (R36, R235). -/
def Obligations.ResetStateIsLegal : Prop :=
  State.reset.Legal ∧ State.reset.noProtocolError

/-- Every step keeps a state legal: the opcode register of either codec holds one of the eight opcodes or IDLE, the
sizes and counters stay in range, a running transaction has a slot, and the adapter, the sequencer and the codec agree
on where the command stands (R22 to R26, R30, R220 to R228, R235). The adapter's task is the model's own field
(entry 9). -/
def Obligations.StepKeepsTheStateLegal : Prop :=
  ∀ s t : State, s.Legal → step s = .next t → t.Legal

/-- From a legal state no step reports a ProtocolError, in either role (R201, R257, R265). -/
def Obligations.NoStepReportsAProtocolError : Prop :=
  ∀ s t : State, s.Legal → s.noProtocolError → step s = .next t → t.noProtocolError

/-- The `Reset` header puts a Driver in step with its sequences from any state whatever, wherever its TAP stands and
whatever code it has latched (R147, R283). -/
def Obligations.ResetHeaderAlignsTheDriver : Prop :=
  ∀ s : State, ∃ t, exec .hdrReset s = .next t ∧ t.drv.Aligned

/-- Every step keeps a Driver in step with its sequences: at rest in IDLE, in a scan exactly where the sequence of R148
and R149 says, only IDCODE or PDICOM latched, and the code an operation needs latched from its data scan on (R145,
R147 to R152, R127, R128). What is latched inside a Reset sequence that has not reached RESET is left open. -/
def Obligations.StepKeepsTheDriverAligned : Prop :=
  ∀ s t : State, s.drv.Aligned → step s = .next t → t.drv.Aligned

/-- A Driver never sends a unit with bad parity, whatever `pdiOut` holds at power-on: in every step the unit of a running
PDICOM transfer is a good one if it was before, and a transfer begins with a good one; a unit that is good stays good or
is replaced by a good one (R198, R135, R153). -/
def Obligations.SentUnitsHaveGoodParity : Prop :=
  ∀ s t : State, step s = .next t →
    ((s.drv.op = .pdiTransfer → parityOk s.drv.pdiOut = true) →
      t.drv.op = .pdiTransfer → parityOk t.drv.pdiOut = true) ∧
    (s.drv.op ≠ .pdiTransfer → t.drv.op = .pdiTransfer → parityOk t.drv.pdiOut = true) ∧
    (parityOk s.drv.pdiOut = true → parityOk t.drv.pdiOut = true)

/-- Bus steps and host bytes do not mix: while an operation runs, a step takes no host byte, writes none, and touches
neither the codec nor the adapter; while none runs, a step performs no bus step and touches neither the TAP core nor the
registers it commits (R53, R145, R156, R221; R123 and R260: a fault does not move the TAP). -/
def Obligations.BusStepsAndHostBytesDoNotMix : Prop :=
  ∀ s t : State, s.obs.samples = [] → step s = .next t →
    (s.drv.op ≠ .none →
      t.drv.hostIn = s.drv.hostIn ∧ t.drv.hostOut = s.drv.hostOut ∧ t.drv.pdi = s.drv.pdi ∧
      t.drv.adState = s.drv.adState ∧ t.drv.inBuf = s.drv.inBuf ∧ t.drv.faults = s.drv.faults ∧
      t.drv.pdiOut = s.drv.pdiOut) ∧
    (s.drv.op = .none →
      t.drv.tap = s.drv.tap ∧ t.drv.sr = s.drv.sr ∧ t.drv.pdiIn = s.drv.pdiIn ∧ t.drv.idcode = s.drv.idcode ∧
      t.drv.bus = s.drv.bus ∧ t.drv.tdoIn = s.drv.tdoIn ∧ t.drv.events = s.drv.events)

/-- In either instance the latched code changes only on a step that ends in RESET, where it is IDCODE, or in UPDATE-IR,
where it is the pending bits (R12, R33, R117, R120): so it is constant from CAPTURE-DR to UPDATE-DR of a scan. -/
def Obligations.LatchedCodeChangesOnlyOnEntry : Prop :=
  ∀ s t : State, step s = .next t →
    (t.drv.tap.ir ≠ s.drv.tap.ir →
      (t.drv.tap.state = .reset ∧ t.drv.tap.ir = 0x3) ∨
      (t.drv.tap.state = .updateIR ∧ t.drv.tap.ir = s.drv.tap.irNext)) ∧
    (t.obs.tap.ir ≠ s.obs.tap.ir →
      (t.obs.tap.state = .reset ∧ t.obs.tap.ir = 0x3) ∨
      (t.obs.tap.state = .updateIR ∧ t.obs.tap.ir = s.obs.tap.irNext))

/-- The instances share nothing: a step changes one of them; what it makes of an Observer depends on that Observer
alone, and what it makes of a Driver on that Driver alone, whatever the other instance holds (R10, R59, R209). Which
instance takes the step is the model's choice (entry 1). -/
def Obligations.InstancesAreIndependent : Prop :=
  (∀ s t : State, step s = .next t →
    (s.obs.samples ≠ [] → t.drv = s.drv) ∧ (s.obs.samples = [] → t.obs = s.obs)) ∧
  (∀ s t s' t' : State, step s = .next t → step s' = .next t' →
    (s.obs = s'.obs → s.obs.samples ≠ [] → t.obs = t'.obs) ∧
    (s.drv = s'.drv → s.obs.samples = [] → s'.obs.samples = [] → t.drv = t'.drv))

/-- An Observer fed the triples of a Driver's steps follows it: after them its whole TAP core, state, latched code and
pending bits, equals the Driver's (R176, R166, R146). -/
def Obligations.ObserverFollowsADriver : Prop :=
  ∀ (n : Nat) (s t o : State), s.obs.samples = [] → runs n s = .next t →
    o.obs.tap = s.drv.tap → o.obs.samples = t.drv.bus.drop s.drv.bus.length →
    ∃ o', runs (t.drv.bus.length - s.drv.bus.length) o = .next o' ∧ o'.obs.tap = t.drv.tap ∧ o'.obs.samples = []

/-- One PDICOM unit leaves the two codecs in agreement: where the adapter, the TAP in IDLE, has an opcode byte or a due
slot to send, it takes the byte if it needs one, drives 14 bus steps (23 with the instruction scan), and finishes the
unit; an Observer with the same TAP core and the same codec that is fed those triples then has the Driver's codec, every
field of it, whatever the target answered: a bad read unit is a ParityError in both (R176, R200, R203, R204). -/
def Obligations.CodecsAgreeAfterEachUnit : Prop :=
  ∀ (s : State) (b : Byte) (rest : List Byte) (k : Nat),
    s.drv.tap.state = .idle → k = (if s.drv.tap.ir = 0x7 then 14 else 23) →
    (atRest s .awaitOpcode ∧ s.drv.pdi.opcode = 0xF ∧ s.drv.hostIn = b :: rest) ∨
      (atRest s .run ∧ s.drv.task = .none ∧ s.drv.pdi.opcode.toNat < 8 ∧
        ((0 < s.drv.pdi.writeRemaining ∧ s.drv.hostIn = b :: rest) ∨
          (s.drv.pdi.writeRemaining = 0 ∧ 0 < s.drv.pdi.readRemaining))) →
    ∃ t, runs (k + 2) s = .next t ∧ t.drv.op = .none ∧ t.drv.task = .none ∧
      t.drv.bus.length = s.drv.bus.length + k ∧
      ∀ o : State, o.obs.tap = s.drv.tap → o.obs.pdi = s.drv.pdi →
        o.obs.samples = t.drv.bus.drop s.drv.bus.length →
        ∃ o', runs k o = .next o' ∧ o'.obs.pdi = t.drv.pdi ∧ o'.obs.tap = t.drv.tap ∧ o'.obs.samples = []

/-- The two codecs agree along any run: from a legal, aligned Driver between two units, an Observer with the same TAP
core and codec that is fed every triple the Driver drives has the Driver's codec whenever the Driver is between two units
again, over `Reset` and `IDCode` commands and over faults (R176, R174, R200, R203, R204). The premise of alignment leaves
out operations begun before the first `Reset` (R283, entry 13). -/
def Obligations.CodecsAgreeBetweenUnits : Prop :=
  ∀ (n : Nat) (s t o : State),
    s.obs.samples = [] → s.Legal → s.drv.Aligned → s.drv.op = .none → s.drv.task = .none →
    runs n s = .next t → t.drv.op = .none → t.drv.task = .none →
    o.obs.tap = s.drv.tap → o.obs.pdi = s.drv.pdi → o.obs.samples = t.drv.bus.drop s.drv.bus.length →
    ∃ o', runs (t.drv.bus.length - s.drv.bus.length) o = .next o' ∧ o'.obs.pdi = t.drv.pdi ∧
      o'.obs.tap = t.drv.tap ∧ o'.obs.samples = []

/-! ## Collaborators -/

/-- The fields of a device-ID word tile it with no gap, and the source's example decodes as it says (R77, R246 to R250,
R252). The tables are the five illustrative entries (entry 24). -/
def Obligations.DeviceIdFieldsTileTheWord : Prop :=
  (∀ w : Word32, idVersion w ++ idPart w ++ idManufacturer w ++ w.extractLsb' 0 1 = w) ∧
  (∀ b0 b1 b2 b3 : Byte, assembleId b0 b1 b2 b3 = b0 ++ b1 ++ b2 ++ b3) ∧
  decodeId Config.sourceTables 0x69 0x84 0x20 0x3F = ⟨"0x6984203f", "Atmel", 6, "ATXMega256A3U"⟩

/-- Every line the Mnemonic Encoder accepts becomes one `PDI` command, mnemonic by mnemonic: the header 0x11, the opcode
byte of R89 to R92 with its fields, and the bytes that follow it, the repeat then active being the line's `repeat`, none
after an `ld` or `st`, and otherwise as before; the opcode byte is documented and the write bytes are as many as the
block will take for it (R81, R88); a suffixed `ld` or `st` under an
active repeat is refused (R93). The open maps and byte orders are arguments, and entries 25 and 33 to 37 name what the
model chose beside them. -/
def Obligations.EncodedLinesAreWholePdiCommands : Prop :=
  (∀ (p : MnemonicParams) (active act : Option Nat) (l : Line) (bs : List Byte),
    encodeLine p active l = .bytes bs act →
    (match l with
      | .lds s a => bs = 0x11 :: BitVec.ofNat 8 (((p.ldsSizes s a).1 - 1) * 4 + ((p.ldsSizes s a).2 - 1)) ::
          p.addressBytes (p.ldsSizes s a).1 a ∧
          (p.addressBytes (p.ldsSizes s a).1 a).length = (p.ldsSizes s a).1 ∧ act = active
      | .sts s a data => bs = 0x11 :: BitVec.ofNat 8 (0x40 + ((p.stsSizes s a).1 - 1) * 4 + ((p.stsSizes s a).2 - 1)) ::
          (p.addressBytes (p.stsSizes s a).1 a ++ data) ∧
          (p.addressBytes (p.stsSizes s a).1 a).length = (p.stsSizes s a).1 ∧ data.length = (p.stsSizes s a).2 ∧ act = active
      | .ld s e => bs = [0x11, BitVec.ofNat 8 (0x20 + (e.mode - 1) * 4 + (p.ldSize s - 1))] ∧ act = none
      | .st s e data => bs = 0x11 :: BitVec.ofNat 8 (0x60 + (e.mode - 1) * 4 + (p.stSize s - 1)) :: data ∧
          data.length = p.stSize s * (active.getD 0 + 1) ∧ act = none
      | .ldcs r => bs = [0x11, BitVec.ofNat 8 (0x80 + r.address)] ∧ r.address ≤ 15 ∧ act = active
      | .stcs r v => bs = [0x11, BitVec.ofNat 8 (0xC0 + r.address), v] ∧ r.address ≤ 15 ∧ act = active
      | .rept n => bs = 0x11 :: BitVec.ofNat 8 (0xA0 + (p.repeatBytes n - 1)) ::
          (List.range (p.repeatBytes n)).map (fun k => BitVec.ofNat 8 (n / 256 ^ k)) ∧
          n < 256 ^ p.repeatBytes n ∧ act = some n
      | .key .nvm => bs = 0x11 :: 0xE0 :: p.keyNvm ∧ act = active
      | .key .debug => bs = 0x11 :: 0xE0 :: p.keyDebug ∧ act = active) ∧
    ∃ (byte : Byte) (writes : List Byte), bs = 0x11 :: byte :: writes ∧ (decodeOpcode byte).documented = true ∧
      writes.length = (counts byte (active.getD 0)).1) ∧
  (∀ (p : MnemonicParams) (n : Nat) (s : Suffix) (e : PtrExpr) (data : List Byte),
    encodeLine p (some n) (.ld (some s) e) = .invalid .suffixUnderRepeat ∧
    encodeLine p (some n) (.st (some s) e data) = .invalid .suffixUnderRepeat)
end

