-- ==== Sys2Proof/Laws/State.lean ====
section
/-! SUPPORT. One lemma per field per update of State: what each accessor of Machine/Ops.lean writes, and that every
other field keeps its value. -/

namespace Sys2Proof.Machine

open Sys2Proof

/-! ## setTap -/

@[simp] theorem setTap_driver_drv_tap (s : State) (t : Tap) : (s.setTap .driver t).drv.tap = t := rfl

@[simp] theorem setTap_driver_drv_sr (s : State) (t : Tap) : (s.setTap .driver t).drv.sr = s.drv.sr := rfl

@[simp] theorem setTap_driver_drv_pdiOut (s : State) (t : Tap) :
    (s.setTap .driver t).drv.pdiOut = s.drv.pdiOut := rfl

@[simp] theorem setTap_driver_drv_pdiIn (s : State) (t : Tap) :
    (s.setTap .driver t).drv.pdiIn = s.drv.pdiIn := rfl

@[simp] theorem setTap_driver_drv_idcode (s : State) (t : Tap) :
    (s.setTap .driver t).drv.idcode = s.drv.idcode := rfl

@[simp] theorem setTap_driver_drv_complete (s : State) (t : Tap) :
    (s.setTap .driver t).drv.complete = s.drv.complete := rfl

@[simp] theorem setTap_driver_drv_op (s : State) (t : Tap) : (s.setTap .driver t).drv.op = s.drv.op := rfl

@[simp] theorem setTap_driver_drv_idx (s : State) (t : Tap) : (s.setTap .driver t).drv.idx = s.drv.idx := rfl

@[simp] theorem setTap_driver_drv_pdi (s : State) (t : Tap) : (s.setTap .driver t).drv.pdi = s.drv.pdi := rfl

@[simp] theorem setTap_driver_drv_adState (s : State) (t : Tap) :
    (s.setTap .driver t).drv.adState = s.drv.adState := rfl

@[simp] theorem setTap_driver_drv_inBuf (s : State) (t : Tap) :
    (s.setTap .driver t).drv.inBuf = s.drv.inBuf := rfl

@[simp] theorem setTap_driver_drv_task (s : State) (t : Tap) :
    (s.setTap .driver t).drv.task = s.drv.task := rfl

@[simp] theorem setTap_driver_drv_hostIn (s : State) (t : Tap) :
    (s.setTap .driver t).drv.hostIn = s.drv.hostIn := rfl

@[simp] theorem setTap_driver_drv_hostOut (s : State) (t : Tap) :
    (s.setTap .driver t).drv.hostOut = s.drv.hostOut := rfl

@[simp] theorem setTap_driver_drv_faults (s : State) (t : Tap) :
    (s.setTap .driver t).drv.faults = s.drv.faults := rfl

@[simp] theorem setTap_driver_drv_tdoIn (s : State) (t : Tap) :
    (s.setTap .driver t).drv.tdoIn = s.drv.tdoIn := rfl

@[simp] theorem setTap_driver_drv_bus (s : State) (t : Tap) : (s.setTap .driver t).drv.bus = s.drv.bus := rfl

@[simp] theorem setTap_driver_drv_events (s : State) (t : Tap) :
    (s.setTap .driver t).drv.events = s.drv.events := rfl

@[simp] theorem setTap_driver_obs (s : State) (t : Tap) : (s.setTap .driver t).obs = s.obs := rfl

@[simp] theorem setTap_observer_obs_tap (s : State) (t : Tap) : (s.setTap .observer t).obs.tap = t := rfl

@[simp] theorem setTap_observer_obs_srTdi (s : State) (t : Tap) :
    (s.setTap .observer t).obs.srTdi = s.obs.srTdi := rfl

@[simp] theorem setTap_observer_obs_srTdo (s : State) (t : Tap) :
    (s.setTap .observer t).obs.srTdo = s.obs.srTdo := rfl

@[simp] theorem setTap_observer_obs_pdi (s : State) (t : Tap) :
    (s.setTap .observer t).obs.pdi = s.obs.pdi := rfl

@[simp] theorem setTap_observer_obs_samples (s : State) (t : Tap) :
    (s.setTap .observer t).obs.samples = s.obs.samples := rfl

@[simp] theorem setTap_observer_obs_events (s : State) (t : Tap) :
    (s.setTap .observer t).obs.events = s.obs.events := rfl

@[simp] theorem setTap_observer_drv (s : State) (t : Tap) : (s.setTap .observer t).drv = s.drv := rfl

/-! ## setCodec -/

@[simp] theorem setCodec_driver_drv_tap (s : State) (c : Codec) :
    (s.setCodec .driver c).drv.tap = s.drv.tap := rfl

@[simp] theorem setCodec_driver_drv_sr (s : State) (c : Codec) :
    (s.setCodec .driver c).drv.sr = s.drv.sr := rfl

@[simp] theorem setCodec_driver_drv_pdiOut (s : State) (c : Codec) :
    (s.setCodec .driver c).drv.pdiOut = s.drv.pdiOut := rfl

@[simp] theorem setCodec_driver_drv_pdiIn (s : State) (c : Codec) :
    (s.setCodec .driver c).drv.pdiIn = s.drv.pdiIn := rfl

@[simp] theorem setCodec_driver_drv_idcode (s : State) (c : Codec) :
    (s.setCodec .driver c).drv.idcode = s.drv.idcode := rfl

@[simp] theorem setCodec_driver_drv_complete (s : State) (c : Codec) :
    (s.setCodec .driver c).drv.complete = s.drv.complete := rfl

@[simp] theorem setCodec_driver_drv_op (s : State) (c : Codec) :
    (s.setCodec .driver c).drv.op = s.drv.op := rfl

@[simp] theorem setCodec_driver_drv_idx (s : State) (c : Codec) :
    (s.setCodec .driver c).drv.idx = s.drv.idx := rfl

@[simp] theorem setCodec_driver_drv_pdi (s : State) (c : Codec) : (s.setCodec .driver c).drv.pdi = c := rfl

@[simp] theorem setCodec_driver_drv_adState (s : State) (c : Codec) :
    (s.setCodec .driver c).drv.adState = s.drv.adState := rfl

@[simp] theorem setCodec_driver_drv_inBuf (s : State) (c : Codec) :
    (s.setCodec .driver c).drv.inBuf = s.drv.inBuf := rfl

@[simp] theorem setCodec_driver_drv_task (s : State) (c : Codec) :
    (s.setCodec .driver c).drv.task = s.drv.task := rfl

@[simp] theorem setCodec_driver_drv_hostIn (s : State) (c : Codec) :
    (s.setCodec .driver c).drv.hostIn = s.drv.hostIn := rfl

@[simp] theorem setCodec_driver_drv_hostOut (s : State) (c : Codec) :
    (s.setCodec .driver c).drv.hostOut = s.drv.hostOut := rfl

@[simp] theorem setCodec_driver_drv_faults (s : State) (c : Codec) :
    (s.setCodec .driver c).drv.faults = s.drv.faults := rfl

@[simp] theorem setCodec_driver_drv_tdoIn (s : State) (c : Codec) :
    (s.setCodec .driver c).drv.tdoIn = s.drv.tdoIn := rfl

@[simp] theorem setCodec_driver_drv_bus (s : State) (c : Codec) :
    (s.setCodec .driver c).drv.bus = s.drv.bus := rfl

@[simp] theorem setCodec_driver_drv_events (s : State) (c : Codec) :
    (s.setCodec .driver c).drv.events = s.drv.events := rfl

@[simp] theorem setCodec_driver_obs (s : State) (c : Codec) : (s.setCodec .driver c).obs = s.obs := rfl

@[simp] theorem setCodec_observer_obs_tap (s : State) (c : Codec) :
    (s.setCodec .observer c).obs.tap = s.obs.tap := rfl

@[simp] theorem setCodec_observer_obs_srTdi (s : State) (c : Codec) :
    (s.setCodec .observer c).obs.srTdi = s.obs.srTdi := rfl

@[simp] theorem setCodec_observer_obs_srTdo (s : State) (c : Codec) :
    (s.setCodec .observer c).obs.srTdo = s.obs.srTdo := rfl

@[simp] theorem setCodec_observer_obs_pdi (s : State) (c : Codec) :
    (s.setCodec .observer c).obs.pdi = c := rfl

@[simp] theorem setCodec_observer_obs_samples (s : State) (c : Codec) :
    (s.setCodec .observer c).obs.samples = s.obs.samples := rfl

@[simp] theorem setCodec_observer_obs_events (s : State) (c : Codec) :
    (s.setCodec .observer c).obs.events = s.obs.events := rfl

@[simp] theorem setCodec_observer_drv (s : State) (c : Codec) : (s.setCodec .observer c).drv = s.drv := rfl

/-! ## emit -/

@[simp] theorem emit_driver_drv_tap (s : State) (es : List Event) :
    (s.emit .driver es).drv.tap = s.drv.tap := rfl

@[simp] theorem emit_driver_drv_sr (s : State) (es : List Event) :
    (s.emit .driver es).drv.sr = s.drv.sr := rfl

@[simp] theorem emit_driver_drv_pdiOut (s : State) (es : List Event) :
    (s.emit .driver es).drv.pdiOut = s.drv.pdiOut := rfl

@[simp] theorem emit_driver_drv_pdiIn (s : State) (es : List Event) :
    (s.emit .driver es).drv.pdiIn = s.drv.pdiIn := rfl

@[simp] theorem emit_driver_drv_idcode (s : State) (es : List Event) :
    (s.emit .driver es).drv.idcode = s.drv.idcode := rfl

@[simp] theorem emit_driver_drv_complete (s : State) (es : List Event) :
    (s.emit .driver es).drv.complete = s.drv.complete := rfl

@[simp] theorem emit_driver_drv_op (s : State) (es : List Event) :
    (s.emit .driver es).drv.op = s.drv.op := rfl

@[simp] theorem emit_driver_drv_idx (s : State) (es : List Event) :
    (s.emit .driver es).drv.idx = s.drv.idx := rfl

@[simp] theorem emit_driver_drv_pdi (s : State) (es : List Event) :
    (s.emit .driver es).drv.pdi = s.drv.pdi := rfl

@[simp] theorem emit_driver_drv_adState (s : State) (es : List Event) :
    (s.emit .driver es).drv.adState = s.drv.adState := rfl

@[simp] theorem emit_driver_drv_inBuf (s : State) (es : List Event) :
    (s.emit .driver es).drv.inBuf = s.drv.inBuf := rfl

@[simp] theorem emit_driver_drv_task (s : State) (es : List Event) :
    (s.emit .driver es).drv.task = s.drv.task := rfl

@[simp] theorem emit_driver_drv_hostIn (s : State) (es : List Event) :
    (s.emit .driver es).drv.hostIn = s.drv.hostIn := rfl

@[simp] theorem emit_driver_drv_hostOut (s : State) (es : List Event) :
    (s.emit .driver es).drv.hostOut = s.drv.hostOut := rfl

@[simp] theorem emit_driver_drv_faults (s : State) (es : List Event) :
    (s.emit .driver es).drv.faults = s.drv.faults := rfl

@[simp] theorem emit_driver_drv_tdoIn (s : State) (es : List Event) :
    (s.emit .driver es).drv.tdoIn = s.drv.tdoIn := rfl

@[simp] theorem emit_driver_drv_bus (s : State) (es : List Event) :
    (s.emit .driver es).drv.bus = s.drv.bus := rfl

@[simp] theorem emit_driver_drv_events (s : State) (es : List Event) :
    (s.emit .driver es).drv.events = s.drv.events ++ es := rfl

@[simp] theorem emit_driver_obs (s : State) (es : List Event) : (s.emit .driver es).obs = s.obs := rfl

@[simp] theorem emit_observer_obs_tap (s : State) (es : List Event) :
    (s.emit .observer es).obs.tap = s.obs.tap := rfl

@[simp] theorem emit_observer_obs_srTdi (s : State) (es : List Event) :
    (s.emit .observer es).obs.srTdi = s.obs.srTdi := rfl

@[simp] theorem emit_observer_obs_srTdo (s : State) (es : List Event) :
    (s.emit .observer es).obs.srTdo = s.obs.srTdo := rfl

@[simp] theorem emit_observer_obs_pdi (s : State) (es : List Event) :
    (s.emit .observer es).obs.pdi = s.obs.pdi := rfl

@[simp] theorem emit_observer_obs_samples (s : State) (es : List Event) :
    (s.emit .observer es).obs.samples = s.obs.samples := rfl

@[simp] theorem emit_observer_obs_events (s : State) (es : List Event) :
    (s.emit .observer es).obs.events = s.obs.events ++ es := rfl

@[simp] theorem emit_observer_drv (s : State) (es : List Event) : (s.emit .observer es).drv = s.drv := rfl

/-! ## emitCodec -/

@[simp] theorem emitCodec_driver (s : State) (es : List Event) : s.emitCodec .driver es = s := rfl

@[simp] theorem emitCodec_observer (s : State) (es : List Event) :
    s.emitCodec .observer es = s.emit .observer es := rfl

/-! ## hostWrite -/

@[simp] theorem hostWrite_drv_tap (s : State) (bs : List Byte) : (s.hostWrite bs).drv.tap = s.drv.tap := rfl

@[simp] theorem hostWrite_drv_sr (s : State) (bs : List Byte) : (s.hostWrite bs).drv.sr = s.drv.sr := rfl

@[simp] theorem hostWrite_drv_pdiOut (s : State) (bs : List Byte) :
    (s.hostWrite bs).drv.pdiOut = s.drv.pdiOut := rfl

@[simp] theorem hostWrite_drv_pdiIn (s : State) (bs : List Byte) :
    (s.hostWrite bs).drv.pdiIn = s.drv.pdiIn := rfl

@[simp] theorem hostWrite_drv_idcode (s : State) (bs : List Byte) :
    (s.hostWrite bs).drv.idcode = s.drv.idcode := rfl

@[simp] theorem hostWrite_drv_complete (s : State) (bs : List Byte) :
    (s.hostWrite bs).drv.complete = s.drv.complete := rfl

@[simp] theorem hostWrite_drv_op (s : State) (bs : List Byte) : (s.hostWrite bs).drv.op = s.drv.op := rfl

@[simp] theorem hostWrite_drv_idx (s : State) (bs : List Byte) : (s.hostWrite bs).drv.idx = s.drv.idx := rfl

@[simp] theorem hostWrite_drv_pdi (s : State) (bs : List Byte) : (s.hostWrite bs).drv.pdi = s.drv.pdi := rfl

@[simp] theorem hostWrite_drv_adState (s : State) (bs : List Byte) :
    (s.hostWrite bs).drv.adState = s.drv.adState := rfl

@[simp] theorem hostWrite_drv_inBuf (s : State) (bs : List Byte) :
    (s.hostWrite bs).drv.inBuf = s.drv.inBuf := rfl

@[simp] theorem hostWrite_drv_task (s : State) (bs : List Byte) :
    (s.hostWrite bs).drv.task = s.drv.task := rfl

@[simp] theorem hostWrite_drv_hostIn (s : State) (bs : List Byte) :
    (s.hostWrite bs).drv.hostIn = s.drv.hostIn := rfl

@[simp] theorem hostWrite_drv_hostOut (s : State) (bs : List Byte) :
    (s.hostWrite bs).drv.hostOut = s.drv.hostOut ++ bs := rfl

@[simp] theorem hostWrite_drv_faults (s : State) (bs : List Byte) :
    (s.hostWrite bs).drv.faults = s.drv.faults := rfl

@[simp] theorem hostWrite_drv_tdoIn (s : State) (bs : List Byte) :
    (s.hostWrite bs).drv.tdoIn = s.drv.tdoIn := rfl

@[simp] theorem hostWrite_drv_bus (s : State) (bs : List Byte) : (s.hostWrite bs).drv.bus = s.drv.bus := rfl

@[simp] theorem hostWrite_drv_events (s : State) (bs : List Byte) :
    (s.hostWrite bs).drv.events = s.drv.events := rfl

@[simp] theorem hostWrite_obs (s : State) (bs : List Byte) : (s.hostWrite bs).obs = s.obs := rfl

/-! ## Reading through the accessors -/

@[simp] theorem tapOf_driver (s : State) : s.tapOf .driver = s.drv.tap := rfl

@[simp] theorem codecOf_driver (s : State) : s.codecOf .driver = s.drv.pdi := rfl

@[simp] theorem tapOf_observer (s : State) : s.tapOf .observer = s.obs.tap := rfl

@[simp] theorem codecOf_observer (s : State) : s.codecOf .observer = s.obs.pdi := rfl

theorem tapOf_setTap (s : State) (r : Role) (t : Tap) : (s.setTap r t).tapOf r = t := by cases r <;> rfl

theorem codecOf_setCodec (s : State) (r : Role) (c : Codec) : (s.setCodec r c).codecOf r = c := by cases r <;> rfl

theorem codecOf_setTap (s : State) (r q : Role) (t : Tap) : (s.setTap r t).codecOf q = s.codecOf q := by
  cases r <;> cases q <;> rfl

theorem tapOf_setCodec (s : State) (r q : Role) (c : Codec) : (s.setCodec r c).tapOf q = s.tapOf q := by
  cases r <;> cases q <;> rfl

/-- Two writes of one field: the second stands. -/
theorem setTap_setTap (s : State) (r : Role) (t u : Tap) : (s.setTap r t).setTap r u = s.setTap r u := by
  cases r <;> rfl

end Sys2Proof.Machine
end

