-- ==== Sys2Proof/Laws/Ops.lean ====
section
/-! SUPPORT. For each shared operation, what it does or leaves alone, said once: the provers cite these lemmas and do
not unfold the operations. -/

namespace Sys2Proof.Machine

open Sys2Proof

/-! ## Which instance is due, streams -/

@[simp] theorem due_of_samples_nil {s : State} (h : s.obs.samples = []) : s.due = .driver := by
  simp [State.due, h]

@[simp] theorem due_of_samples_cons {s : State} {b : BusSample} {rest : List BusSample}
    (h : s.obs.samples = b :: rest) : s.due = .observer := by
  simp [State.due, h]

/-- `HostRead` on a full buffer or an empty stream changes nothing. -/
theorem hostRead_of_full {s : State} {b : Byte} (h : s.drv.inBuf = some b) : s.hostRead = s := by
  simp [State.hostRead, h]

theorem hostRead_of_empty {s : State} (h : s.drv.hostIn = []) : s.hostRead = s := by
  unfold State.hostRead
  split
  · rename_i h1; rw [h] at h1; cases h1
  · rfl

/-- `HostRead` with an empty buffer takes the first byte of the stream. -/
theorem hostRead_of_cons {s : State} {b : Byte} {rest : List Byte} (hb : s.drv.inBuf = none)
    (h : s.drv.hostIn = b :: rest) :
    s.hostRead = { s with drv := { s.drv with inBuf := some b, hostIn := rest } } := by
  simp [State.hostRead, hb, h]

/-- `HostRead` touches the buffer and the stream of the Driver, nothing else. -/
theorem hostRead_frame (s : State) : ∃ (o : Option Byte) (l : List Byte),
    s.hostRead = { s with drv := { s.drv with inBuf := o, hostIn := l } } := by
  unfold State.hostRead
  split
  · exact ⟨_, _, rfl⟩
  · exact ⟨s.drv.inBuf, s.drv.hostIn, rfl⟩

@[simp] theorem hostRead_obs (s : State) : s.hostRead.obs = s.obs := by
  obtain ⟨o, l, h⟩ := hostRead_frame s; rw [h]

/-! ## The codec -/

@[simp] theorem accept_fields (c : Codec) (o : BitVec 4) (a b w r : Nat) :
    (c.accept o a b w r).opcode = o ∧ (c.accept o a b w r).sizeA = a ∧ (c.accept o a b w r).sizeB = b ∧
      (c.accept o a b w r).writeRemaining = w ∧ (c.accept o a b w r).readRemaining = r ∧
      (c.accept o a b w r).repeatCount = c.repeatCount ∧ (c.accept o a b w r).isNewCommand = true :=
  ⟨rfl, rfl, rfl, rfl, rfl, rfl, rfl⟩

theorem captureRepeat_of_ne {c : Codec} (h : c.opcode ≠ 5) : c.captureRepeat = c := if_neg h

theorem captureRepeat_of_eq {c : Codec} (h : c.opcode = 5) :
    c.captureRepeat = { c with repeatCount := byterev c.sizeB c.repeatAcc } := if_pos h

theorem repeatable_iff (c : Codec) : c.repeatable = true ↔ c.opcode = 1 ∨ c.opcode = 3 := by
  simp [Codec.repeatable]

/-- `Settle` in three cases: a slot is left; one more iteration; the end. -/
theorem settle_cases (c : Codec) :
    ((0 < c.writeRemaining ∨ 0 < c.readRemaining) ∧ c.settle = (c, [])) ∨
    (c.writeRemaining = 0 ∧ c.readRemaining = 0 ∧ (c.opcode = 1 ∨ c.opcode = 3) ∧ c.repeatCount ≠ 0 ∧
      c.settle = (c.reload, [])) ∨
    (c.writeRemaining = 0 ∧ c.readRemaining = 0 ∧ ¬ ((c.opcode = 1 ∨ c.opcode = 3) ∧ c.repeatCount ≠ 0) ∧
      c.settle = (c.captureRepeat.finish, [.pdiDone c.opcode])) := by
  have hop : c.captureRepeat.opcode = c.opcode := by unfold Codec.captureRepeat; split <;> rfl
  by_cases hs : c.writeRemaining = 0 ∧ c.readRemaining = 0
  · have hrep : (c.captureRepeat.repeatable = true ∧ c.captureRepeat.repeatCount ≠ 0) ↔
        ((c.opcode = 1 ∨ c.opcode = 3) ∧ c.repeatCount ≠ 0) := by
      rw [repeatable_iff, hop]
      by_cases h5 : c.opcode = 5
      · simp [h5]
      · rw [captureRepeat_of_ne h5]
    by_cases hr : (c.opcode = 1 ∨ c.opcode = 3) ∧ c.repeatCount ≠ 0
    · refine .inr (.inl ⟨hs.1, hs.2, hr.1, hr.2, ?_⟩)
      have h5 : c.opcode ≠ 5 := by rcases hr.1 with h | h <;> rw [h] <;> decide
      have hrep' := hrep.mpr hr
      rw [captureRepeat_of_ne h5] at hrep'
      simp only [Codec.settle, if_pos hs, captureRepeat_of_ne h5, if_pos hrep']
    · refine .inr (.inr ⟨hs.1, hs.2, hr, ?_⟩)
      simp only [Codec.settle, if_pos hs, if_neg (fun h => hr (hrep.mp h)), hop]
  · refine .inl ⟨by omega, ?_⟩
    simp only [Codec.settle, if_neg hs]

/-- No codec operation reports a fault: the events of `Settle` are at most one PdiDone. -/
theorem settle_events (c : Codec) : c.settle.2 = [] ∨ c.settle.2 = [.pdiDone c.opcode] := by
  rcases settle_cases c with ⟨-, h⟩ | ⟨-, -, -, -, h⟩ | ⟨-, -, -, h⟩ <;> simp [h]

theorem writeSlot_eq (c : Codec) (b : Byte) :
    c.writeSlot b = ((c.countWrite b).settle.1, .pdiWrite b c.isNewCommand :: (c.countWrite b).settle.2) := rfl

theorem readSlot_eq (c : Codec) (b : Byte) :
    c.readSlot b = (c.countRead.settle.1, .pdiRead b c.isNewCommand :: c.countRead.settle.2) := rfl

/-! ## Taking a fault -/

@[simp] theorem raise_codecOf (r : Role) (f : PdiFault) (u : Unit9) (s : State) :
    (raise r f u s).codecOf r = (s.codecOf r).abort := by cases r <;> rfl

@[simp] theorem raise_tapOf (r q : Role) (f : PdiFault) (u : Unit9) (s : State) : (raise r f u s).tapOf q = s.tapOf q := by
  cases r <;> cases q <;> rfl

@[simp] theorem raise_driver_obs (f : PdiFault) (u : Unit9) (s : State) : (raise .driver f u s).obs = s.obs := rfl

@[simp] theorem raise_observer_drv (f : PdiFault) (u : Unit9) (s : State) : (raise .observer f u s).drv = s.drv := rfl

/-! ## Slots of an instance -/

/-- A write slot of a Driver counts in its codec; with no opcode to dispatch on it takes a ProtocolError. -/
theorem writeSlot_driver (u : Unit9) (s : State) :
    writeSlot .driver u s =
      if s.drv.pdi.opcode.toNat < 8 then s.setCodec .driver (s.drv.pdi.writeSlot (unitData u)).1
      else raise .driver (.protocolError s.drv.pdi.opcode) u s := by
  by_cases h : s.drv.pdi.opcode.toNat < 8 <;> simp [writeSlot, Codec.dispatchOk, h]

theorem readSlot_driver (u : Unit9) (s : State) :
    readSlot .driver u s =
      if s.drv.pdi.opcode.toNat < 8 then (s.setCodec .driver (s.drv.pdi.readSlot (unitData u)).1).hostWrite [unitData u]
      else raise .driver (.protocolError s.drv.pdi.opcode) u s := by
  by_cases h : s.drv.pdi.opcode.toNat < 8 <;> simp [readSlot, consumeReadByte, Codec.dispatchOk, h]

theorem writeSlot_observer (u : Unit9) (s : State) :
    writeSlot .observer u s =
      if s.obs.pdi.opcode.toNat < 8 then
        (s.setCodec .observer (s.obs.pdi.writeSlot (unitData u)).1).emit .observer (s.obs.pdi.writeSlot (unitData u)).2
      else raise .observer (.protocolError s.obs.pdi.opcode) u s := by
  by_cases h : s.obs.pdi.opcode.toNat < 8 <;> simp [writeSlot, Codec.dispatchOk, h]

theorem readSlot_observer (u : Unit9) (s : State) :
    readSlot .observer u s =
      if s.obs.pdi.opcode.toNat < 8 then
        (s.setCodec .observer (s.obs.pdi.readSlot (unitData u)).1).emit .observer (s.obs.pdi.readSlot (unitData u)).2
      else raise .observer (.protocolError s.obs.pdi.opcode) u s := by
  by_cases h : s.obs.pdi.opcode.toNat < 8 <;> simp [readSlot, consumeReadByte, Codec.dispatchOk, h]

/-! ## Frames between the instances -/

theorem acceptByte_driver_obs (b : Byte) (s : State) : (acceptByte .driver b s).obs = s.obs := by
  unfold acceptByte; split <;> rfl

theorem acceptByte_observer_drv (b : Byte) (s : State) : (acceptByte .observer b s).drv = s.drv := by
  unfold acceptByte; split <;> rfl

theorem writeSlot_driver_obs (u : Unit9) (s : State) : (writeSlot .driver u s).obs = s.obs := by
  rw [writeSlot_driver]; split <;> rfl

theorem readSlot_driver_obs (u : Unit9) (s : State) : (readSlot .driver u s).obs = s.obs := by
  rw [readSlot_driver]; split <;> rfl

/-- Accepting an opcode in an Observer writes its codec and emits, nothing else. -/
theorem acceptByte_observer_frame (b : Byte) (s : State) : ∃ (c : Codec) (es : List Event),
    acceptByte .observer b s = (s.setCodec .observer c).emit .observer es := by
  unfold acceptByte
  split
  iterate 8 exact ⟨_, _, rfl⟩
  exact ⟨s.obs.pdi, [], by simp [State.emit, State.setCodec]⟩

theorem writeSlot_observer_frame (u : Unit9) (s : State) : ∃ (c : Codec) (es : List Event),
    writeSlot .observer u s = (s.setCodec .observer c).emit .observer es := by
  rw [writeSlot_observer]; split <;> exact ⟨_, _, rfl⟩

theorem readSlot_observer_frame (u : Unit9) (s : State) : ∃ (c : Codec) (es : List Event),
    readSlot .observer u s = (s.setCodec .observer c).emit .observer es := by
  rw [readSlot_observer]; split <;> exact ⟨_, _, rfl⟩

/-- The units of a scan reach the Observer's codec and its events, nothing else. -/
theorem observeUnit_frame (u v : Unit9) (s : State) : ∃ (c : Codec) (es : List Event),
    observeUnit u v s = (s.setCodec .observer c).emit .observer es := by
  unfold observeUnit
  split_ifs
  · exact acceptByte_observer_frame _ _
  · exact ⟨_, _, rfl⟩
  · exact writeSlot_observer_frame _ _
  · exact ⟨_, _, rfl⟩
  · exact readSlot_observer_frame _ _
  · exact ⟨_, _, rfl⟩

/-- A code is one of the three named ones or none of them. -/
theorem decodeIr_cases (c : IrCode) :
    (c = 0x3 ∧ decodeIr c = .instr .irIdcode) ∨ (c = 0x7 ∧ decodeIr c = .instr .irPdicom) ∨
    (c = 0xF ∧ decodeIr c = .instr .irBypass) ∨
    (c ≠ 0x3 ∧ c ≠ 0x7 ∧ decodeIr c = .rejected (.unnamedCode c)) := by
  unfold decodeIr
  split_ifs <;> simp_all

/-- Entry to UPDATE-DR in an Observer writes its codec and emits, nothing else. -/
theorem updateDR_observer_frame (s : State) : ∃ (c : Codec) (es : List Event),
    updateDR .observer s = (s.setCodec .observer c).emit .observer es := by
  unfold updateDR
  split
  · exact ⟨s.obs.pdi, [.capturedDR (capturedDR 0x3 s), .idCode (capturedDR 0x3 s).tdo],
      by simp [idcodeUpdate, emitCaptured, State.emit, State.setCodec]⟩
  · obtain ⟨c, es, h⟩ := observeUnit_frame (top9 s.obs.srTdi) (top9 s.obs.srTdo) (emitCaptured 0x7 s)
    refine ⟨c, .capturedDR (capturedDR 0x7 s) :: es, ?_⟩
    rw [pdicomUpdate, h]
    simp [emitCaptured, State.emit, State.setCodec]
  · exact ⟨s.obs.pdi, _, by simp [bypassUpdate, otherUpdate, emitCaptured, State.emit, State.setCodec]; rfl⟩
  · exact ⟨s.obs.pdi, _, by simp [otherUpdate, emitCaptured, State.emit, State.setCodec]; rfl⟩

/-- Entry to UPDATE-DR in a Driver writes its two commit registers at most. -/
theorem updateDR_driver (s : State) :
    updateDR .driver s = { s with drv := { s.drv with
      idcode := if s.drv.tap.ir = 0x3 then s.drv.sr else s.drv.idcode,
      pdiIn := if s.drv.tap.ir = 0x7 then top9 s.drv.sr else s.drv.pdiIn } } := by
  rcases decodeIr_cases s.drv.tap.ir with ⟨h, -⟩ | ⟨h, -⟩ | ⟨h, -⟩ | ⟨h3, h7, hd⟩
  · simp only [updateDR, tapOf_driver, idcodeUpdate, h]; rfl
  · simp only [updateDR, tapOf_driver, pdicomUpdate, h]; rfl
  · simp only [updateDR, tapOf_driver, bypassUpdate, otherUpdate, h]; rfl
  · simp only [updateDR, tapOf_driver, hd, otherUpdate, if_neg h3, if_neg h7]

/-! ## The sequencer -/

/-- After the last pair the operation is over; a scan raises `complete`. -/
theorem advance_of_last {s : State} (h : (opSeq s.drv.op).length ≤ s.drv.idx + 1) :
    advance s = { s with drv := { s.drv with op := .none, idx := 0, complete := s.drv.op.scans } } := by
  simp [advance, h]

/-- Before the last pair the index moves on. -/
theorem advance_of_more {s : State} (h : s.drv.idx + 1 < (opSeq s.drv.op).length) :
    advance s = { s with drv := { s.drv with idx := s.drv.idx + 1, complete := false } } := by
  simp [advance, Nat.not_le.mpr h]

@[simp] theorem advance_obs (s : State) : (advance s).obs = s.obs := by unfold advance; split <;> rfl
@[simp] theorem advance_tap (s : State) : (advance s).drv.tap = s.drv.tap := by unfold advance; split <;> rfl
@[simp] theorem advance_bus (s : State) : (advance s).drv.bus = s.drv.bus := by unfold advance; split <;> rfl

@[simp] theorem opSeq_length_reset : (opSeq .reset).length = 6 := by decide
@[simp] theorem opSeq_length_readId : (opSeq .readId).length = 46 := by decide
@[simp] theorem opSeq_length_pdiTransfer : (opSeq .pdiTransfer).length = 23 := by decide

/-! ## The TAP step of either instance -/

/-- Entry to UPDATE-DR leaves the TAP core of either instance alone. -/
theorem updateDR_tapOf (r : Role) (s : State) : (updateDR r s).tapOf r = s.tapOf r := by
  cases r
  · rw [updateDR_driver]; rfl
  · obtain ⟨c, es, h⟩ := updateDR_observer_frame s; rw [h]; rfl

/-- The action of an entered state leaves the TAP state alone. -/
theorem entryAction_state (r : Role) (n : TapState) (s : State) :
    ((entryAction r n s).tapOf r).state = (s.tapOf r).state := by
  unfold entryAction
  split
  · cases r <;> rfl
  · cases r <;> rfl
  · rw [updateDR_tapOf]
  · rfl

/-- After a TAP step an instance stands where the table says. -/
theorem tapStep_state (r : Role) (p : TapState) (tms tdi tdo : Bool) (s : State) :
    ((tapStep r p tms tdi tdo s).tapOf r).state = tapNext p tms := by
  have he : ∀ (u : State) (es : List Event), (u.emit r es).tapOf r = u.tapOf r := by intro u es; cases r <;> rfl
  unfold tapStep
  rw [he, entryAction_state]
  cases r <;> rfl

/-- A Driver's TAP step leaves the Observer alone. -/
theorem tapStep_driver_obs (p : TapState) (tms tdi tdo : Bool) (s : State) :
    (tapStep .driver p tms tdi tdo s).obs = s.obs := by
  unfold tapStep entryAction stateAction
  split <;> split <;> first | rfl | (rw [updateDR_driver]; rfl)

/-- An Observer's TAP step leaves the Driver alone. -/
theorem tapStep_observer_drv (p : TapState) (tms tdi tdo : Bool) (s : State) :
    (tapStep .observer p tms tdi tdo s).drv = s.drv := by
  have h1 : ∀ (q : TapState) (u : State), (entryAction .observer q u).drv = u.drv := by
    intro q u
    unfold entryAction
    split
    · rfl
    · rfl
    · obtain ⟨c, es, h⟩ := updateDR_observer_frame u; rw [h]; rfl
    · rfl
  have h2 : (stateAction .observer p tdi tdo s).drv = s.drv := by
    unfold stateAction; split <;> rfl
  unfold tapStep
  simp only [emit_observer_drv, h1]
  exact h2

/-- A Driver's bus step writes its TAP core, its data registers and the bus streams, then the sequencer moves on. -/
theorem driverTap_frame (p : TapState) (tms : Bool) (s : State) :
    ∃ (t : Tap) (sr : Word32) (u : Unit9) (id : Word32) (bus : List BusSample) (td : List Bool) (ev : List Event),
      driverTap p tms s = advance { s with drv := { s.drv with
        tap := t, sr := sr, pdiIn := u, idcode := id, bus := bus, tdoIn := td, events := ev } } := by
  have hm : ∃ (t : Tap) (sr : Word32), ∀ n, moveTap .driver n
      (stateAction .driver p (drvTdi p s) s.nextTdo s) =
      { s with drv := { s.drv with tap := { t with state := n }, sr := sr } } := by
    unfold stateAction
    split <;> exact ⟨_, _, fun _ => rfl⟩
  obtain ⟨t, sr, hm⟩ := hm
  unfold driverTap tapStep
  rw [hm]
  unfold entryAction
  split
  · exact ⟨_, _, _, _, _, _, _, rfl⟩
  · exact ⟨_, _, _, _, _, _, _, rfl⟩
  · rw [updateDR_driver]; exact ⟨_, _, _, _, _, _, _, rfl⟩
  · exact ⟨_, _, _, _, _, _, _, rfl⟩

theorem driverTap_obs (p : TapState) (tms : Bool) (s : State) : (driverTap p tms s).obs = s.obs := by
  unfold driverTap
  rw [advance_obs]
  exact tapStep_driver_obs _ _ _ _ _

theorem observerTap_drv (p : TapState) (tms : Bool) (b : BusSample) (s : State) :
    (observerTap p tms b s).drv = s.drv := tapStep_observer_drv _ _ _ _ _

theorem observerTap_samples (p : TapState) (tms : Bool) (b : BusSample) (s : State) :
    (observerTap p tms b s).obs.samples = (tapStep .observer p tms b.tdi b.tdo s).obs.samples.tail := rfl

/-! ## Adapter actions -/

theorem startWrite_of_empty {s : State} (hb : s.drv.inBuf = none) (h : s.drv.hostIn = []) :
    startWrite s = s := by
  simp [startWrite, hostRead_of_empty h, hb]

theorem startWrite_of_cons {s : State} {d : Byte} {rest : List Byte} (hb : s.drv.inBuf = none)
    (h : s.drv.hostIn = d :: rest) :
    startWrite s = withTask .sentWrite (pdiTransfer d
      { s with drv := { s.drv with inBuf := none, hostIn := rest, adState := .run } }) := by
  simp [startWrite, hostRead_of_cons hb h, consumeInto]

theorem loopTest_obs (s : State) : (loopTest s).obs = s.obs := by unfold loopTest; split <;> rfl

theorem adapterRun_obs (s : State) : (adapterRun s).obs = s.obs := by
  unfold adapterRun
  split
  · rfl
  · rfl
  · rfl
  · unfold finishWrite; rw [loopTest_obs, writeSlot_driver_obs]; rfl
  · unfold finishRead; split
    · rw [loopTest_obs, readSlot_driver_obs]; rfl
    · rfl
  · unfold nextSlotAction; split
    · rfl
    · split
      · unfold startWrite; split
        · rfl
        · exact hostRead_obs s
      · rfl
      · rfl

end Sys2Proof.Machine
end

