-- ==== Sys2Proof/Laws/PerInstr.lean ====
section
/-! SUPPORT. The per-instruction family `MatchesRow`: the word an instruction encodes to is a word of its row of
spec/opcode_table.json. -/

namespace Sys2Proof.Laws.MatchesRow

open Sys2Proof

/-- A row of the opcode table: its format, its fixed bits and where they stand. -/
structure Row where
  fmt : Format
  base : Byte
  mask : Byte
  deriving DecidableEq, Repr

/-- The row of each instruction, transcribed from the table. -/
def row : Instr → Row
  | .hdrReset => ⟨.hostHeader, 0x1E, 0xFF⟩
  | .hdrIdCode => ⟨.hostHeader, 0x10, 0xFF⟩
  | .hdrPdi => ⟨.hostHeader, 0x11, 0xFF⟩
  | .hdrError => ⟨.hostHeader, 0x1F, 0xFF⟩
  | .lds _ _ _ => ⟨.pdiOpcode, 0x00, 0xE0⟩
  | .ld _ _ _ => ⟨.pdiOpcode, 0x20, 0xE0⟩
  | .sts _ _ _ => ⟨.pdiOpcode, 0x40, 0xE0⟩
  | .st _ _ _ => ⟨.pdiOpcode, 0x60, 0xE0⟩
  | .ldcs _ _ => ⟨.pdiOpcode, 0x80, 0xE0⟩
  | .rept _ _ _ => ⟨.pdiOpcode, 0xA0, 0xE0⟩
  | .stcs _ _ => ⟨.pdiOpcode, 0xC0, 0xE0⟩
  | .key _ _ => ⟨.pdiOpcode, 0xE0, 0xE0⟩
  | .irIdcode => ⟨.jtagIr, 0x03, 0x0F⟩
  | .irPdicom => ⟨.jtagIr, 0x07, 0x0F⟩
  | .irBypass => ⟨.jtagIr, 0x0F, 0x0F⟩
  | .resetTms0 => ⟨.tapStep, 0x00, 0x1F⟩
  | .resetTms1 => ⟨.tapStep, 0x01, 0x1F⟩
  | .idleTms0 => ⟨.tapStep, 0x02, 0x1F⟩
  | .idleTms1 => ⟨.tapStep, 0x03, 0x1F⟩
  | .selectDRTms0 => ⟨.tapStep, 0x04, 0x1F⟩
  | .selectDRTms1 => ⟨.tapStep, 0x05, 0x1F⟩
  | .captureDRTms0 => ⟨.tapStep, 0x06, 0x1F⟩
  | .captureDRTms1 => ⟨.tapStep, 0x07, 0x1F⟩
  | .shiftDRTms0 => ⟨.tapStep, 0x08, 0x1F⟩
  | .shiftDRTms1 => ⟨.tapStep, 0x09, 0x1F⟩
  | .exit1DRTms0 => ⟨.tapStep, 0x0A, 0x1F⟩
  | .exit1DRTms1 => ⟨.tapStep, 0x0B, 0x1F⟩
  | .pauseDRTms0 => ⟨.tapStep, 0x0C, 0x1F⟩
  | .pauseDRTms1 => ⟨.tapStep, 0x0D, 0x1F⟩
  | .exit2DRTms0 => ⟨.tapStep, 0x0E, 0x1F⟩
  | .exit2DRTms1 => ⟨.tapStep, 0x0F, 0x1F⟩
  | .updateDRTms0 => ⟨.tapStep, 0x10, 0x1F⟩
  | .updateDRTms1 => ⟨.tapStep, 0x11, 0x1F⟩
  | .selectIRTms0 => ⟨.tapStep, 0x12, 0x1F⟩
  | .selectIRTms1 => ⟨.tapStep, 0x13, 0x1F⟩
  | .captureIRTms0 => ⟨.tapStep, 0x14, 0x1F⟩
  | .captureIRTms1 => ⟨.tapStep, 0x15, 0x1F⟩
  | .shiftIRTms0 => ⟨.tapStep, 0x16, 0x1F⟩
  | .shiftIRTms1 => ⟨.tapStep, 0x17, 0x1F⟩
  | .exit1IRTms0 => ⟨.tapStep, 0x18, 0x1F⟩
  | .exit1IRTms1 => ⟨.tapStep, 0x19, 0x1F⟩
  | .pauseIRTms0 => ⟨.tapStep, 0x1A, 0x1F⟩
  | .pauseIRTms1 => ⟨.tapStep, 0x1B, 0x1F⟩
  | .exit2IRTms0 => ⟨.tapStep, 0x1C, 0x1F⟩
  | .exit2IRTms1 => ⟨.tapStep, 0x1D, 0x1F⟩
  | .updateIRTms0 => ⟨.tapStep, 0x1E, 0x1F⟩
  | .updateIRTms1 => ⟨.tapStep, 0x1F, 0x1F⟩

/-- The word is in the row's format, carries the row's fixed bits, and has no bit above the format's width: there the
mask is the whole format but for opcode bytes, which fill theirs. -/
def Statement (i : Instr) : Prop :=
  i.wf = true → (encode i).fmt = (row i).fmt ∧ (encode i).word &&& (row i).mask = (row i).base ∧
    ((row i).fmt ≠ .pdiOpcode → (encode i).word = (row i).base)

/-- The opcode bits of an opcode byte are its opcode, whatever the five bits below. -/
theorem opcodeByte_mask (k : Nat) (hk : k < 8) (x : Bool) (low : Nat) (h : low < 16) :
    opcodeByte k x low &&& 0xE0 = BitVec.ofNat 8 (32 * k) := by
  have key : ∀ (k : Fin 8) (x : Bool) (low : Fin 16),
      opcodeByte k x low &&& 0xE0 = BitVec.ofNat 8 (32 * k) := by decide
  exact key ⟨k, hk⟩ x ⟨low, h⟩

theorem sizes_low {a b : Nat} (h : (sizeOk a && sizeOk b) = true) : 4 * (a - 1) + (b - 1) < 16 := by
  simp only [sizeOk, Bool.and_eq_true, decide_eq_true_eq] at h
  omega

theorem hdrReset : Statement .hdrReset := fun _ => ⟨rfl, by decide, fun _ => rfl⟩

theorem hdrIdCode : Statement .hdrIdCode := fun _ => ⟨rfl, by decide, fun _ => rfl⟩

theorem hdrPdi : Statement .hdrPdi := fun _ => ⟨rfl, by decide, fun _ => rfl⟩

theorem hdrError : Statement .hdrError := fun _ => ⟨rfl, by decide, fun _ => rfl⟩

theorem lds (x : Bool) (a b : Nat) : Statement (.lds x a b) := fun h =>
  ⟨rfl, opcodeByte_mask 0 (by decide) x _ (sizes_low h), fun hn => absurd rfl hn⟩

theorem ld (x : Bool) (a b : Nat) : Statement (.ld x a b) := fun h =>
  ⟨rfl, opcodeByte_mask 1 (by decide) x _ (sizes_low h), fun hn => absurd rfl hn⟩

theorem sts (x : Bool) (a b : Nat) : Statement (.sts x a b) := fun h =>
  ⟨rfl, opcodeByte_mask 2 (by decide) x _ (sizes_low h), fun hn => absurd rfl hn⟩

theorem st (x : Bool) (a b : Nat) : Statement (.st x a b) := fun h =>
  ⟨rfl, opcodeByte_mask 3 (by decide) x _ (sizes_low h), fun hn => absurd rfl hn⟩

theorem ldcs (x : Bool) (c : Nat) : Statement (.ldcs x c) := fun h =>
  ⟨rfl, opcodeByte_mask 4 (by decide) x _ (Nat.lt_succ_of_le (of_decide_eq_true h)), fun hn => absurd rfl hn⟩

theorem rept (x : Bool) (u b : Nat) : Statement (.rept x u b) := by
  intro h
  have hl : 4 * u + (b - 1) < 16 := by
    simp only [Instr.wf, sizeOk, Bool.and_eq_true, decide_eq_true_eq] at h
    omega
  exact ⟨rfl, opcodeByte_mask 5 (by decide) x _ hl, fun hn => absurd rfl hn⟩

theorem stcs (x : Bool) (c : Nat) : Statement (.stcs x c) := fun h =>
  ⟨rfl, opcodeByte_mask 6 (by decide) x _ (Nat.lt_succ_of_le (of_decide_eq_true h)), fun hn => absurd rfl hn⟩

theorem key (x : Bool) (u : Nat) : Statement (.key x u) := fun h =>
  ⟨rfl, opcodeByte_mask 7 (by decide) x _ (Nat.lt_succ_of_le (of_decide_eq_true h)), fun hn => absurd rfl hn⟩

theorem irIdcode : Statement .irIdcode := fun _ => ⟨rfl, by decide, fun _ => rfl⟩

theorem irPdicom : Statement .irPdicom := fun _ => ⟨rfl, by decide, fun _ => rfl⟩

theorem irBypass : Statement .irBypass := fun _ => ⟨rfl, by decide, fun _ => rfl⟩

theorem resetTms0 : Statement .resetTms0 := fun _ => ⟨rfl, by decide, fun _ => rfl⟩

theorem resetTms1 : Statement .resetTms1 := fun _ => ⟨rfl, by decide, fun _ => rfl⟩

theorem idleTms0 : Statement .idleTms0 := fun _ => ⟨rfl, by decide, fun _ => rfl⟩

theorem idleTms1 : Statement .idleTms1 := fun _ => ⟨rfl, by decide, fun _ => rfl⟩

theorem selectDRTms0 : Statement .selectDRTms0 := fun _ => ⟨rfl, by decide, fun _ => rfl⟩

theorem selectDRTms1 : Statement .selectDRTms1 := fun _ => ⟨rfl, by decide, fun _ => rfl⟩

theorem captureDRTms0 : Statement .captureDRTms0 := fun _ => ⟨rfl, by decide, fun _ => rfl⟩

theorem captureDRTms1 : Statement .captureDRTms1 := fun _ => ⟨rfl, by decide, fun _ => rfl⟩

theorem shiftDRTms0 : Statement .shiftDRTms0 := fun _ => ⟨rfl, by decide, fun _ => rfl⟩

theorem shiftDRTms1 : Statement .shiftDRTms1 := fun _ => ⟨rfl, by decide, fun _ => rfl⟩

theorem exit1DRTms0 : Statement .exit1DRTms0 := fun _ => ⟨rfl, by decide, fun _ => rfl⟩

theorem exit1DRTms1 : Statement .exit1DRTms1 := fun _ => ⟨rfl, by decide, fun _ => rfl⟩

theorem pauseDRTms0 : Statement .pauseDRTms0 := fun _ => ⟨rfl, by decide, fun _ => rfl⟩

theorem pauseDRTms1 : Statement .pauseDRTms1 := fun _ => ⟨rfl, by decide, fun _ => rfl⟩

theorem exit2DRTms0 : Statement .exit2DRTms0 := fun _ => ⟨rfl, by decide, fun _ => rfl⟩

theorem exit2DRTms1 : Statement .exit2DRTms1 := fun _ => ⟨rfl, by decide, fun _ => rfl⟩

theorem updateDRTms0 : Statement .updateDRTms0 := fun _ => ⟨rfl, by decide, fun _ => rfl⟩

theorem updateDRTms1 : Statement .updateDRTms1 := fun _ => ⟨rfl, by decide, fun _ => rfl⟩

theorem selectIRTms0 : Statement .selectIRTms0 := fun _ => ⟨rfl, by decide, fun _ => rfl⟩

theorem selectIRTms1 : Statement .selectIRTms1 := fun _ => ⟨rfl, by decide, fun _ => rfl⟩

theorem captureIRTms0 : Statement .captureIRTms0 := fun _ => ⟨rfl, by decide, fun _ => rfl⟩

theorem captureIRTms1 : Statement .captureIRTms1 := fun _ => ⟨rfl, by decide, fun _ => rfl⟩

theorem shiftIRTms0 : Statement .shiftIRTms0 := fun _ => ⟨rfl, by decide, fun _ => rfl⟩

theorem shiftIRTms1 : Statement .shiftIRTms1 := fun _ => ⟨rfl, by decide, fun _ => rfl⟩

theorem exit1IRTms0 : Statement .exit1IRTms0 := fun _ => ⟨rfl, by decide, fun _ => rfl⟩

theorem exit1IRTms1 : Statement .exit1IRTms1 := fun _ => ⟨rfl, by decide, fun _ => rfl⟩

theorem pauseIRTms0 : Statement .pauseIRTms0 := fun _ => ⟨rfl, by decide, fun _ => rfl⟩

theorem pauseIRTms1 : Statement .pauseIRTms1 := fun _ => ⟨rfl, by decide, fun _ => rfl⟩

theorem exit2IRTms0 : Statement .exit2IRTms0 := fun _ => ⟨rfl, by decide, fun _ => rfl⟩

theorem exit2IRTms1 : Statement .exit2IRTms1 := fun _ => ⟨rfl, by decide, fun _ => rfl⟩

theorem updateIRTms0 : Statement .updateIRTms0 := fun _ => ⟨rfl, by decide, fun _ => rfl⟩

theorem updateIRTms1 : Statement .updateIRTms1 := fun _ => ⟨rfl, by decide, fun _ => rfl⟩

end Sys2Proof.Laws.MatchesRow
end

