-- ==== Sys2Proof/Laws/Step.lean ====
section
/-! SUPPORT. What a step can do, said once: every step answers a next state, in one of seven ways. -/

namespace Sys2Proof.Machine

open Sys2Proof

/-- The packed word of a state and a bit is decoded to the row of that state and bit. -/
@[simp] theorem decode_packTapStep (p : TapState) (tms : Bool) :
    decodeTapStep (packTapStep p tms) = tapRow p tms := by
  cases p <;> cases tms <;> decide

/-- Executing a row is a TAP step of the instance that is due. -/
theorem exec_tapRow (p : TapState) (tms : Bool) (s : State) :
    exec (tapRow p tms) s = .next (tapInstr p tms s) := by
  cases p <;> cases tms <;> rfl

/-- Executing the instruction an opcode byte decodes to is accepting that instruction in the instance that is due. -/
theorem exec_decodeOpcode (b : Byte) (s : State) :
    exec (decodeOpcode b) s = .next (acceptByte s.due b s) := by
  unfold acceptByte decodeOpcode
  split <;> rfl

/-- Four header bytes decode to an instruction; the others to none. -/
theorem decodeHeader_cases (b : Byte) :
    (b = 0x1E ∧ decodeHeader b = .instr .hdrReset) ∨ (b = 0x10 ∧ decodeHeader b = .instr .hdrIdCode) ∨
    (b = 0x11 ∧ decodeHeader b = .instr .hdrPdi) ∨ (b = 0x1F ∧ decodeHeader b = .instr .hdrError) ∨
    decodeHeader b = .rejected (.unassignedHeader b) := by
  unfold decodeHeader
  split_ifs <;> simp_all

/-! ## The seven kinds of step -/

theorem step_sample {s : State} {b : BusSample} {rest : List BusSample} (h : s.obs.samples = b :: rest) :
    step s = .next (observerTap s.obs.tap.state b.tms b s) := by
  simp only [step, fetch, h, decode_packTapStep, exec_tapRow, tapInstr]

theorem step_driver {s : State} (h : s.obs.samples = []) :
    step s = match fetchDriver s with
      | .instr i t => exec i t
      | .act t => .next t := by
  have hf : fetch s = fetchDriver s := by simp only [fetch, h]
  unfold step
  cases hd : fetchDriver s <;> simp only [hf, hd]

theorem fetchDriver_running {s : State} (h : s.drv.op ≠ .none) : fetchDriver s = fetchBusStep s := by
  unfold fetchDriver; split
  · contradiction
  · rfl

theorem step_pair {s : State} {p : Pair} (h : s.obs.samples = []) (ho : s.drv.op ≠ .none)
    (hp : s.currentPair = some p) : step s = .next (driverTap s.drv.tap.state p.tms s) := by
  simp only [step_driver h, fetchDriver_running ho, fetchBusStep, hp, decode_packTapStep, exec_tapRow, tapInstr, h]

theorem step_exhausted {s : State} (h : s.obs.samples = []) (ho : s.drv.op ≠ .none)
    (hp : s.currentPair = none) : step s = .next (advance s) := by
  simp only [step_driver h, fetchDriver_running ho, fetchBusStep, hp]

theorem step_run {s : State} (h : s.obs.samples = []) (ho : s.drv.op = .none) (ha : s.drv.adState = .run) :
    step s = .next (adapterRun s) := by
  simp only [step_driver h, fetchDriver, ho, ha]

theorem step_waits {s : State} (h : s.obs.samples = []) (ho : s.drv.op = .none) (ha : s.drv.adState ≠ .run)
    (hb : s.hostRead.drv.inBuf = none) : step s = .next s := by
  cases hA : s.drv.adState with
  | awaitHeader => simp only [step_driver h, fetchDriver, ho, hA, fetchHeader, hb]
  | awaitOpcode => simp only [step_driver h, fetchDriver, ho, hA, fetchOpcode, hb]
  | run => contradiction

/-- What a header byte does once it is in the buffer: the four headers' effects, or nothing but its removal. -/
def headerEffect (b : Byte) (s : State) : State :=
  if b = 0x1E then doReset s else if b = 0x10 then doIdCode s else if b = 0x11 then doPdi s else skipHeader s

theorem step_header {s : State} {b : Byte} (h : s.obs.samples = []) (ho : s.drv.op = .none)
    (ha : s.drv.adState = .awaitHeader) (hb : s.hostRead.drv.inBuf = some b) :
    step s = .next (headerEffect b s.hostRead) := by
  rcases decodeHeader_cases b with ⟨rfl, hd⟩ | ⟨rfl, hd⟩ | ⟨rfl, hd⟩ | ⟨rfl, hd⟩ | hd
  all_goals simp only [step_driver h, fetchDriver, ho, ha, fetchHeader, hb, hd]
  · rfl
  · rfl
  · rfl
  · rfl
  · have hn : b ≠ 0x1E ∧ b ≠ 0x10 ∧ b ≠ 0x11 := by
      refine ⟨?_, ?_, ?_⟩ <;> rintro rfl <;> cases hd
    rw [headerEffect, if_neg hn.1, if_neg hn.2.1, if_neg hn.2.2]

theorem step_opcode {s : State} {b : Byte} (h : s.obs.samples = []) (ho : s.drv.op = .none)
    (ha : s.drv.adState = .awaitOpcode) (hb : s.hostRead.drv.inBuf = some b) :
    step s = .next (acceptByte .driver b s.hostRead) := by
  have hd : s.hostRead.due = .driver := due_of_samples_nil (by rw [hostRead_obs]; exact h)
  simp only [step_driver h, fetchDriver, ho, ha, fetchOpcode, hb, exec_decodeOpcode, hd]

/-- Every step is one of seven, and answers a next state. -/
theorem step_cases (s : State) :
    (∃ b rest, s.obs.samples = b :: rest ∧ step s = .next (observerTap s.obs.tap.state b.tms b s)) ∨
    (s.obs.samples = [] ∧
      ((s.drv.op ≠ .none ∧ ∃ p, s.currentPair = some p ∧
          step s = .next (driverTap s.drv.tap.state p.tms s)) ∨
        (s.drv.op ≠ .none ∧ s.currentPair = none ∧ step s = .next (advance s)) ∨
        (s.drv.op = .none ∧ s.drv.adState ≠ .run ∧ s.hostRead.drv.inBuf = none ∧ step s = .next s) ∨
        (s.drv.op = .none ∧ s.drv.adState = .awaitHeader ∧ ∃ b, s.hostRead.drv.inBuf = some b ∧
          step s = .next (headerEffect b s.hostRead)) ∨
        (s.drv.op = .none ∧ s.drv.adState = .awaitOpcode ∧ ∃ b, s.hostRead.drv.inBuf = some b ∧
          step s = .next (acceptByte .driver b s.hostRead)) ∨
        (s.drv.op = .none ∧ s.drv.adState = .run ∧ step s = .next (adapterRun s)))) := by
  cases h : s.obs.samples with
  | cons b rest => exact .inl ⟨b, rest, rfl, step_sample h⟩
  | nil =>
    refine .inr ⟨rfl, ?_⟩
    by_cases ho : s.drv.op = .none
    · cases hA : s.drv.adState with
      | run => exact .inr (.inr (.inr (.inr (.inr ⟨ho, rfl, step_run h ho hA⟩))))
      | awaitHeader =>
        cases hb : s.hostRead.drv.inBuf with
        | none => exact .inr (.inr (.inl ⟨ho, by decide, rfl, step_waits h ho (by simp [hA]) hb⟩))
        | some b => exact .inr (.inr (.inr (.inl ⟨ho, rfl, b, rfl, step_header h ho hA hb⟩)))
      | awaitOpcode =>
        cases hb : s.hostRead.drv.inBuf with
        | none => exact .inr (.inr (.inl ⟨ho, by decide, rfl, step_waits h ho (by simp [hA]) hb⟩))
        | some b => exact .inr (.inr (.inr (.inr (.inl ⟨ho, rfl, b, rfl, step_opcode h ho hA hb⟩))))
    · cases hp : s.currentPair with
      | some p => exact .inl ⟨ho, p, rfl, step_pair h ho hp⟩
      | none => exact .inr (.inl ⟨ho, rfl, step_exhausted h ho hp⟩)

/-- No step stops the machine. -/
theorem step_next (s : State) : ∃ t, step s = .next t := by
  rcases step_cases s with ⟨_, _, _, h⟩ | ⟨_, h⟩
  · exact ⟨_, h⟩
  · rcases h with ⟨_, _, _, h⟩ | ⟨_, _, h⟩ | ⟨_, _, _, h⟩ | ⟨_, _, _, _, h⟩ | ⟨_, _, _, _, h⟩ | ⟨_, _, h⟩ <;>
      exact ⟨_, h⟩

/-- No instruction stops the machine. -/
theorem exec_next (i : Instr) (s : State) : ∃ t, exec i s = .next t := by
  cases i <;> exact ⟨_, rfl⟩

end Sys2Proof.Machine
end

