-- ==== Sys2Proof/Tests/Slice0.lean ====
section
/-! SUPPORT. Tests: the well-formedness smoke test, a decoded word for every constructor, single steps with results
from the spec's examples and vectors (95_test_vectors.md), and a witness for the hypotheses of every statement. -/

namespace Sys2Proof.Tests

open Sys2Proof Sys2Proof.Machine Sys2Proof.Spec

/-! ## Well-formedness: each check refuses an ill-formed term -/

theorem test_wf_refuses_sizeA_zero : (Instr.lds false 0 1).wf = false := by decide
theorem test_wf_refuses_sizeB_five : (Instr.sts false 1 5).wf = false := by decide
theorem test_wf_refuses_mode_five : (Instr.ld false 5 1).wf = false := by decide
theorem test_wf_refuses_sizeB_zero : (Instr.st false 1 0).wf = false := by decide
theorem test_wf_refuses_csAddr_sixteen :
    (Instr.ldcs false 16).wf = false ∧ (Instr.stcs false 16).wf = false := by decide
theorem test_wf_refuses_repeat_unused_four : (Instr.rept false 4 1).wf = false := by decide
theorem test_wf_refuses_repeat_sizeB_five : (Instr.rept false 0 5).wf = false := by decide
theorem test_wf_refuses_key_unused_sixteen : (Instr.key false 16).wf = false := by decide
theorem test_wf_accepts_boundaries :
    (Instr.lds true 4 1).wf && (Instr.st false 1 4).wf && (Instr.stcs true 15).wf && (Instr.rept true 3 4).wf &&
      (Instr.key true 15).wf = true := by decide

/-! ## Decoding: a word written out for every constructor (30_encoding.md R67, R73, R75, R78) -/

theorem test_decode_headers :
    decodeHeader 0b00011110 = .instr .hdrReset ∧ decodeHeader 0b00010000 = .instr .hdrIdCode ∧
    decodeHeader 0b00010001 = .instr .hdrPdi ∧ decodeHeader 0b00011111 = .instr .hdrError := by decide

/-- `ooo x aa bb` of R73: V-C1 and V-C2 of the vectors. -/
theorem test_decode_opcodes :
    decodeOpcode 0b000_0_11_01 = .lds false 4 2 ∧ decodeOpcode 0b001_0_01_00 = .ld false 2 1 ∧
    decodeOpcode 0b010_0_00_11 = .sts false 1 4 ∧ decodeOpcode 0b011_1_10_01 = .st true 3 2 ∧
    decodeOpcode 0b100_0_1101 = .ldcs false 13 ∧ decodeOpcode 0b101_0_11_10 = .rept false 3 3 ∧
    decodeOpcode 0b110_1_0010 = .stcs true 2 ∧ decodeOpcode 0b111_0_0101 = .key false 5 := by decide

theorem test_decode_codes :
    decodeIr 0b0011 = .instr .irIdcode ∧ decodeIr 0b0111 = .instr .irPdicom ∧
    decodeIr 0b1111 = .instr .irBypass := by decide

theorem test_decode_tap_steps_dr :
    [0b00000, 0b00001, 0b00010, 0b00011, 0b00100, 0b00101, 0b00110, 0b00111, 0b01000, 0b01001, 0b01010, 0b01011,
      0b01100, 0b01101, 0b01110, 0b01111, 0b10000, 0b10001].map decodeTapStep =
    [.resetTms0, .resetTms1, .idleTms0, .idleTms1, .selectDRTms0, .selectDRTms1, .captureDRTms0, .captureDRTms1,
      .shiftDRTms0, .shiftDRTms1, .exit1DRTms0, .exit1DRTms1, .pauseDRTms0, .pauseDRTms1, .exit2DRTms0,
      .exit2DRTms1, .updateDRTms0, .updateDRTms1] := by decide

theorem test_decode_tap_steps_ir :
    [0b10010, 0b10011, 0b10100, 0b10101, 0b10110, 0b10111, 0b11000, 0b11001, 0b11010, 0b11011, 0b11100, 0b11101,
      0b11110, 0b11111].map decodeTapStep =
    [.selectIRTms0, .selectIRTms1, .captureIRTms0, .captureIRTms1, .shiftIRTms0, .shiftIRTms1, .exit1IRTms0,
      .exit1IRTms1, .pauseIRTms0, .pauseIRTms1, .exit2IRTms0, .exit2IRTms1, .updateIRTms0, .updateIRTms1] := by
  decide

/-- Unassigned headers, unnamed codes and words wider than their format are rejected by name. -/
theorem test_decode_rejects :
    decode ⟨.hostHeader, 0x12⟩ = .rejected (.unassignedHeader 0x12) ∧
    decode ⟨.jtagIr, 0x5⟩ = .rejected (.unnamedCode 0x5) ∧
    decode ⟨.jtagIr, 0x13⟩ = .rejected (.tooWide .jtagIr 0x13) ∧
    decode ⟨.tapStep, 0x20⟩ = .rejected (.tooWide .tapStep 0x20) := by decide

theorem test_table_words :
    decodeTableWord 8 0x1E = some .hdrReset ∧ decodeTableWord 8 0xC0 = some (.stcs false 0) ∧
    decodeTableWord 8 0x7 = some .irPdicom ∧ decodeTableWord 8 0x9 = some .shiftDRTms1 ∧
    decodeTableWord 4 0xF = some .irBypass ∧ decodeTableWord 5 0x10 = some .updateDRTms0 := by decide

/-! ## Small states -/

/-- A codec with sizes 1, an opcode, its counters and a repeat count. -/
def codec (op : BitVec 4) (writes reads : Nat) (rc : Word32) : Codec :=
  { opcode := op, sizeA := 1, sizeB := 1, writeRemaining := writes, readRemaining := reads, repeatCount := rc,
    repeatAcc := 0, isNewCommand := op != 0xF }

/-- A Driver's state: adapter, task, operation and index, TAP, codec, host bytes, TDO bits. -/
def drvState (a : AdapterState) (k : Task) (op : DriverOp) (idx : Nat) (t : Tap) (c : Codec) (host : List Byte)
    (tdo : List Bool) : State :=
  { State.reset with drv := { Driver.powerOn with
      adState := a, task := k, op := op, idx := idx, tap := t, pdi := c, hostIn := host, tdoIn := tdo } }

/-- An Observer's state: TAP, codec, the units at the top of its capture registers, one sample. -/
def obsState (t : Tap) (c : Codec) (u v : Unit9) (b : BusSample) : State :=
  { State.reset with obs := { Observer.powerOn with
      tap := t, pdi := c, srTdi := u.setWidth 32 <<< 23, srTdo := v.setWidth 32 <<< 23, samples := [b] } }

/-- A fact about the next state. -/
def after (o : Host.Outcome State Fault Refusal) (p : State → Bool) : Bool :=
  match o with
  | .next t => p t
  | _ => false

def idleCodec : Codec := codec 0xF 0 0 0

/-! ## Single steps -/

/-- V-A1's first and last step: the header begins six bus steps, the end writes 01. -/
theorem test_reset_header :
    after (exec .hdrReset (drvState .awaitHeader .none .none 0 ⟨.shiftDR, 0x7, 0⟩ (codec 0xF 0 0 5) [] []))
      (fun t => t.drv.op == .reset && t.drv.pdi.repeatCount == 0 && (opSeq t.drv.op).map Pair.tms ==
        [true, true, true, true, true, false]) = true := by decide

theorem test_reset_answers_one :
    after (step (drvState .run .finishReset .none 0 ⟨.idle, 0x3, 0⟩ idleCodec [] []))
      (fun t => t.drv.hostOut == [0x01] && t.drv.adState == .awaitHeader) = true := by decide

/-- V-D4: 46 steps with an instruction scan, 37 without. -/
theorem test_idcode_header_lengths :
    (after (exec .hdrIdCode (drvState .awaitHeader .none .none 0 ⟨.idle, 0x7, 0⟩ idleCodec [] []))
      (fun t => (opSeq t.drv.op).length - t.drv.idx == 46)) &&
    (after (exec .hdrIdCode (drvState .awaitHeader .none .none 0 ⟨.idle, 0x3, 0⟩ idleCodec [] []))
      (fun t => (opSeq t.drv.op).length - t.drv.idx == 37)) = true := by decide

/-- S7: raw32 0x6984203F gives 69 84 20 3F. -/
theorem test_idcode_bytes :
    after (step { State.reset with drv := { Driver.powerOn with
        adState := .run, task := .finishIdCode, idcode := 0x6984203F } })
      (fun t => t.drv.hostOut == [0x69, 0x84, 0x20, 0x3F]) = true := by decide

theorem test_pdi_header :
    after (step (drvState .awaitHeader .none .none 0 ⟨.idle, 0x3, 0⟩ idleCodec [0x11, 0xC0] []))
      (fun t => t.drv.adState == .awaitOpcode && t.drv.hostIn == [0xC0] && t.drv.inBuf == none) = true := by decide

/-- V-A5: 1F and FF are consumed and ignored. -/
theorem test_error_and_unassigned_headers :
    (after (step (drvState .awaitHeader .none .none 0 ⟨.idle, 0x3, 0⟩ idleCodec [0x1F] []))
      (fun t => t == drvState .awaitHeader .none .none 0 ⟨.idle, 0x3, 0⟩ idleCodec [] [])) &&
    (after (step (drvState .awaitHeader .none .none 0 ⟨.idle, 0x3, 0⟩ idleCodec [0xFF] []))
      (fun t => t == drvState .awaitHeader .none .none 0 ⟨.idle, 0x3, 0⟩ idleCodec [] [])) = true := by decide

/-- The accept of an opcode byte in a Driver: V-C1's columns (write, read slots; sizes) and the unit sent. -/
def accepts (b : Byte) (op : BitVec 4) (sizeA sizeB writes reads : Nat) (u : Unit9) : Bool :=
  after (step (drvState .awaitOpcode .none .none 0 ⟨.idle, 0x7, 0x7⟩ (codec 0xF 0 0 2) [b] []))
    (fun t => t.drv.pdi.opcode == op && t.drv.pdi.sizeA == sizeA && t.drv.pdi.sizeB == sizeB &&
      t.drv.pdi.writeRemaining == writes && t.drv.pdi.readRemaining == reads && t.drv.pdi.repeatCount == 2 &&
      t.drv.pdiOut == u && t.drv.idx == 9)

theorem test_lds_accept : accepts 0x0C 0 4 1 4 1 0x00C = true := by decide
theorem test_ld_accept : accepts 0x24 1 2 1 0 1 0x024 = true := by decide
theorem test_sts_accept : accepts 0x4C 2 4 1 5 0 0x14C = true := by decide
theorem test_st_accept : accepts 0x64 3 2 1 1 0 0x164 = true := by decide
theorem test_ldcs_accept : accepts 0x8F 4 4 4 0 1 0x18F = true := by decide
theorem test_repeat_accept : accepts 0xA1 5 1 2 2 0 0x1A1 = true := by decide
/-- By R135 and R198 the unit of 0xC1 is 0x1C1 (V-A9 prints 0x0C1: entry 12). -/
theorem test_stcs_accept : accepts 0xC1 6 1 2 1 0 0x1C1 = true := by decide
theorem test_key_accept : accepts 0xE0 7 1 1 8 0 0x1E0 = true := by decide

/-- V-C3: operand bytes 0x01, 0x00 give the count 1; the four bytes of the fifth row give 0x78563412. -/
theorem test_repeat_reversal :
    byterev 2 (accumulate (accumulate 0 0x01) 0x00) = 1 ∧
    byterev 4 ([0x12, 0x34, 0x56, 0x78].foldl accumulate 0) = 0x78563412 := by decide

/-- V-C4: the first read under a count of 2 reloads, the last one ends the transaction. -/
theorem test_ld_iterates :
    ((codec 1 0 1 2).readSlot 0xAA).1 = { codec 1 0 1 1 with isNewCommand := false } ∧
    ((codec 1 0 1 0).readSlot 0xCC).1.opcode = 0xF := by decide

/-- V-A14: unit 0x1BB in a read slot is a ParityError; nothing is returned and the count is cleared. -/
theorem test_read_parity_error :
    after (step { State.reset with drv := { Driver.powerOn with
        adState := .run, task := .sentRead, pdi := codec 1 0 1 1, pdiIn := 0x1BB } })
      (fun t => t.drv.faults == [⟨.parityError 0x1BB .read, 0x1BB⟩] && t.drv.hostOut == [] &&
        t.drv.pdi.repeatCount == 0 && t.drv.pdi.opcode == 0xF && t.drv.adState == .awaitHeader) = true := by decide

/-- V-A9: in a write slot 0x1E is data. -/
theorem test_write_slot_takes_1E :
    after (step (drvState .run .none .none 0 ⟨.idle, 0x7, 0x7⟩ (codec 6 1 0 0) [0x1E] []))
      (fun t => t.drv.task == .sentWrite && t.drv.pdiOut == 0x01E && t.drv.hostOut == []) = true := by decide

/-- V-S2: the load of unit 0x1FD, the first shift of it, and the commit of 0x2D000000. -/
theorem test_driver_capture :
    after (exec .captureDRTms0 { State.reset with drv := { Driver.powerOn with
        tap := ⟨.captureDR, 0x7, 0x7⟩, pdiOut := 0x1FD, op := .pdiTransfer, idx := 11, tdoIn := [true] } })
      (fun t => t.drv.sr == 0x000001FD && t.drv.tap.state == .shiftDR && t.drv.idx == 12) = true := by decide

theorem test_driver_shift :
    after (exec .shiftDRTms0 { State.reset with drv := { Driver.powerOn with
        tap := ⟨.shiftDR, 0x7, 0x7⟩, sr := 0x000001FD, op := .pdiTransfer, idx := 12, tdoIn := [true] } })
      (fun t => t.drv.sr == 0x800000FE && t.drv.bus == [⟨false, true, true⟩]) = true := by decide

theorem test_driver_pdicom_commit :
    after (exec .exit1DRTms1 { State.reset with drv := { Driver.powerOn with
        tap := ⟨.exit1DR, 0x7, 0x7⟩, sr := 0x2D000000, op := .pdiTransfer, idx := 21, tdoIn := [false] } })
      (fun t => t.drv.pdiIn == 0x05A && t.drv.complete == false && t.drv.tap.state == .updateDR) = true := by decide

/-- R154: the step taken in UPDATE-DR carries `complete`. -/
theorem test_driver_complete :
    after (exec .updateDRTms0 { State.reset with drv := { Driver.powerOn with
        tap := ⟨.updateDR, 0x7, 0x7⟩, op := .pdiTransfer, idx := 22, tdoIn := [false] } })
      (fun t => t.drv.complete && t.drv.op == .none && t.drv.tap.state == .idle) = true := by decide

/-- R128's example continued: the fourth bit of 0,1,0,1 enters at bit 3; UPDATE-IR latches 0xA. -/
theorem test_instruction_shift_and_latch :
    (after (exec .shiftIRTms1 (obsState ⟨.shiftIR, 0x3, 0x4⟩ idleCodec 0 0 ⟨true, true, false⟩))
      (fun t => t.obs.tap.irNext == 0xA)) &&
    (after (exec .exit1IRTms1 (obsState ⟨.exit1IR, 0x3, 0xA⟩ idleCodec 0 0 ⟨true, false, false⟩))
      (fun t => t.obs.tap.ir == 0xA)) = true := by decide

/-- R117, R174: entry to RESET latches IDCODE and clears the Observer's codec (V-O2). -/
theorem test_observer_reset_entry :
    after (exec .selectIRTms1 (obsState ⟨.selectIR, 0x7, 0x7⟩ (codec 2 2 0 0) 0 0 ⟨true, false, false⟩))
      (fun t => t.obs.tap.ir == 0x3 && t.obs.pdi.opcode == 0xF && t.obs.pdi.writeRemaining == 0) = true := by decide

/-- V-O3: 0x1C0 as an opcode unit is a fault, 0x0C0 is STCS. -/
theorem test_observer_opcode_unit :
    (after (exec .exit1DRTms1 (obsState ⟨.exit1DR, 0x7, 0x7⟩ idleCodec 0x1C0 0 ⟨true, false, false⟩))
      (fun t => t.obs.events == [.capturedDR ⟨0x7, 9, 0x1C0, 0⟩, .fault (.parityError 0x1C0 .opcode) 0x1C0,
        .stateTransition .exit1DR .updateDR])) &&
    (after (exec .exit1DRTms1 (obsState ⟨.exit1DR, 0x7, 0x7⟩ idleCodec 0x0C0 0 ⟨true, false, false⟩))
      (fun t => t.obs.events == [.capturedDR ⟨0x7, 9, 0x0C0, 0⟩, .pdiOpcode 0xC0 6 1 1 0,
        .stateTransition .exit1DR .updateDR])) = true := by decide

/-- V-O1: the read unit 0x102 gives PdiRead(0x02) and PdiDone(LDCS); V-O4's unnamed code gives OtherDR. -/
theorem test_observer_read_unit_and_other :
    (after (exec .exit2DRTms1 (obsState ⟨.exit2DR, 0x7, 0x7⟩ (codec 4 0 1 0) 0 0x102 ⟨true, false, false⟩))
      (fun t => t.obs.events == [.capturedDR ⟨0x7, 9, 0, 0x102⟩, .pdiRead 0x02 true, .pdiDone 4,
        .stateTransition .exit2DR .updateDR])) &&
    (after (exec .exit1DRTms1 { obsState ⟨.exit1DR, 0x5, 0x5⟩ idleCodec 0 0 ⟨true, false, false⟩ with
        obs := { (obsState ⟨.exit1DR, 0x5, 0x5⟩ idleCodec 0 0 ⟨true, false, false⟩).obs with
          srTdi := 1, srTdo := 2 } })
      (fun t => t.obs.events == [.capturedDR ⟨0x5, 32, 1, 2⟩, .otherDR 0x5 1 2,
        .stateTransition .exit1DR .updateDR])) = true := by decide

/-- Every row, in an Observer, moves to the state the table names (R101 to R116). -/
theorem test_rows_move_as_the_table_says :
    tapRows.all (fun r => after (exec r.1 (obsState ⟨r.2.1, 0x3, 0x3⟩ idleCodec 0 0 ⟨r.2.2.1, false, false⟩))
      (fun t => t.obs.tap.state == r.2.2.2 && t.obs.samples == [])) = true := by decide

/-- The three JTAG instructions in a Driver (R121). -/
theorem test_jtag_instructions :
    (after (exec .irIdcode { State.reset with drv := { Driver.powerOn with sr := 0x6984203F } })
      (fun t => t.drv.idcode == 0x6984203F)) &&
    (after (exec .irPdicom { State.reset with drv := { Driver.powerOn with sr := 0xFF800000 } })
      (fun t => t.drv.pdiIn == 0x1FF)) &&
    (after (exec .irBypass State.reset) (fun t => t == State.reset)) = true := by decide

/-- V-S1 and V-S4. -/
theorem test_units :
    unit9 0xC0 = 0x0C0 ∧ unit9 0xFD = 0x1FD ∧ unit9 0x80 = 0x180 ∧ parityOk 0x102 = true ∧
    parityOk 0x1BB = false := by decide

/-- 95_test_vectors.md 2.7: the hex fallback row and the INVALID row. -/
theorem test_device_id :
    decodeId Config.sourceTables 0x61 0x23 0x40 0x3F = ⟨"0x6123403f", "Atmel", 6, "0x1234"⟩ ∧
    decodeId Config.sourceTables 0x69 0x84 0x20 0x41 = ⟨"0x69842041", "INVALID", 6, "ATXMega256A3U"⟩ := by decide

/-- A parameter set for the Mnemonic Encoder: the open maps filled in for the tests. -/
def params : MnemonicParams where
  ldsSizes := fun s _ => (4, s.bytes)
  stsSizes := fun s _ => (4, s.bytes)
  ldSize := fun s => (s.map Suffix.bytes).getD 1
  stSize := fun s => (s.map Suffix.bytes).getD 1
  repeatBytes := fun n => if n < 256 then 1 else 2
  addressBytes := fun n v => leBytes n v
  keyNvm := List.replicate 8 0
  keyDebug := List.replicate 8 1

/-- R91's example, and R93's refusal. -/
theorem test_mnemonics :
    encodeLine params none (.stcs .status 0xFD) = .bytes [0x11, 0xC0, 0xFD] none ∧
    encodeLine params none (.rept 2) = .bytes [0x11, 0xA0, 0x02] (some 2) ∧
    encodeLine params (some 2) (.ld (some .u8) .pointer) = .invalid .suffixUnderRepeat := by decide

/-! ## Input predicates (93_implementation_defined.md) -/

/-- U8: nine shifts of a PDICOM scan are regular and twelve are not, wherever in the scan the state stands. U3, U7: an
observed opcode unit with bit 4 set, and an LD of two bytes under a repeat, are not. -/
theorem test_irregular_samples :
    let o := fun (u : Unit9) (c : Codec) => (obsState ⟨.exit1DR, 0x7, 0x7⟩ c u 0 ⟨true, false, false⟩).inputsRegular
    (let s := obsState ⟨.shiftDR, 0x7, 0x7⟩ idleCodec 0 0 ⟨true, false, false⟩
     s.inputsRegular 8 = true ∧ s.shiftsAfter 8 = 9) ∧
    o 0x0C0 idleCodec 9 = true ∧ o 0x0C0 idleCodec 12 = false ∧ o 0x1D0 idleCodec 9 = false ∧
    o 0x021 idleCodec 9 = true ∧ o 0x021 (codec 0xF 0 0 2) 9 = false := by decide

/-- U11: 0x1E for a due write slot is irregular; a `Reset` queued behind a transfer that still runs is not. U9: an
`IDCode` in RESET. -/
theorem test_irregular_host_bytes :
    (drvState .run .none .none 0 ⟨.idle, 0x7, 0⟩ (codec 6 1 0 0) [0x1E] []).inputsRegular 0 = false ∧
    (drvState .run .sentWrite .none 0 ⟨.idle, 0x7, 0⟩ (codec 6 1 0 0) [0x1E] []).inputsRegular 0 = true ∧
    (drvState .awaitHeader .none .none 0 ⟨.reset, 0x3, 0⟩ idleCodec [0x10] []).inputsRegular 0 = false ∧
    runRegular 8 0 (drvState .awaitHeader .none .none 0 ⟨.reset, 0x3, 0⟩ idleCodec [0x1E, 0x10] []) = true := by
  decide

/-- A table word placed from reset is what the next step runs, in each format. -/
theorem test_fetch_word_runs :
    (after (step (State.reset.withFetchWord 8 0x1E)) (fun t => t.drv.op == .reset)) &&
    (after (step (State.reset.withFetchWord 8 0xE0)) (fun t => t.drv.pdi.writeRemaining == 8)) &&
    (after (step (State.reset.withFetchWord 8 0x7)) (fun t => t.obs.events.head? == some
      (.capturedDR ⟨0x7, 9, 0, 0⟩))) &&
    (after (step (State.reset.withFetchWord 8 0x15)) (fun t => t.obs.tap.state == .exit1IR)) = true := by decide

/-! ## Witnesses: concrete states and operands that meet the hypotheses of each statement, clause by clause -/

theorem witness_DecodeOfEncodeIsIdentity :
    (Instr.lds true 4 1).wf = true ∧ (Instr.rept false 3 4).wf = true ∧ (Instr.stcs false 15).wf = true ∧
    Instr.hdrError.wf = true ∧ Instr.irBypass.wf = true ∧ Instr.updateIRTms1.wf = true := by decide

theorem witness_EncodeOfDecodeIsIdentity :
    decode ⟨.hostHeader, 0x1F⟩ = .instr .hdrError ∧ decode ⟨.pdiOpcode, 0xFF⟩ = .instr (.key true 15) ∧
    decode ⟨.jtagIr, 0x0F⟩ = .instr .irBypass ∧ decode ⟨.tapStep, 0x1F⟩ = .instr .updateIRTms1 := by decide

/-- An Observer with a pending sample, and a Driver in the middle of a scan. -/
def sampled : State := obsState ⟨.exit1DR, 0x7, 0x7⟩ idleCodec 0x0C0 0x102 ⟨true, true, false⟩

theorem witness_StepRunsTheDecodedInstruction :
    (sampled.obs.samples = [⟨true, true, false⟩] ∧
      decodeTapStep (packTapStep sampled.obs.tap.state true) = .exit1DRTms1) ∧
    (let s := drvState .run .sentOpcode .pdiTransfer 22 ⟨.updateDR, 0x7, 0x7⟩ (codec 6 1 0 0) [] []
     s.obs.samples = [] ∧ s.drv.op ≠ .none ∧ (opSeq s.drv.op)[s.drv.idx]? = some ⟨false, false⟩ ∧
      decodeTapStep (packTapStep s.drv.tap.state false) = .updateDRTms0) ∧
    (atRest (drvState .awaitHeader .none .none 0 ⟨.idle, 0x3, 0⟩ idleCodec [0x1E, 0x12] []) .awaitHeader ∧
      decodeHeader 0x1E = .instr .hdrReset) ∧
    atRest (drvState .awaitHeader .none .none 0 ⟨.idle, 0x3, 0⟩ idleCodec [0x12] []) .awaitHeader ∧
    (atRest (drvState .awaitOpcode .none .none 0 ⟨.idle, 0x3, 0⟩ idleCodec [0xC0] []) .awaitOpcode ∧
      decodeOpcode 0xC0 = .stcs false 0) :=
  ⟨by decide, by decide, ⟨⟨rfl, rfl, rfl, rfl⟩, by decide⟩, ⟨rfl, rfl, rfl, rfl⟩, ⟨rfl, rfl, rfl, rfl⟩, by decide⟩

theorem witness_PackedTapWordIsItsRow :
    (Instr.idleTms0, TapState.idle, false, TapState.idle) ∈ tapRows := by decide

theorem witness_UpdateDrRunsTheLatchedInstruction :
    sampled.obs.samples = [⟨true, true, false⟩] ∧ decodeIr sampled.obs.tap.ir = .instr .irPdicom ∧
    decodeIr 0x3 = .instr .irIdcode ∧ decodeIr 0xF = .instr .irBypass := by decide

theorem witness_ObserverRowsWithoutAction :
    sampled.obs.samples = [⟨true, true, false⟩] ∧
    (Instr.captureDRTms0, TapState.captureDR, false, TapState.shiftDR) ∈ tapRows := by decide

theorem witness_ObserverShiftRows :
    sampled.obs.samples = [⟨true, true, false⟩] ∧
    (Instr.shiftDRTms1, TapState.shiftDR, true, TapState.exit1DR) ∈ tapRows ∧
    (Instr.shiftIRTms0, TapState.shiftIR, false, TapState.shiftIR) ∈ tapRows := by decide

theorem witness_ObserverRowsIntoReset :
    sampled.obs.samples = [⟨true, true, false⟩] ∧
    (Instr.resetTms1, TapState.reset, true, TapState.reset) ∈ tapRows ∧
    (Instr.selectIRTms1, TapState.selectIR, true, TapState.reset) ∈ tapRows := by decide

theorem witness_ObserverRowsIntoUpdateIr :
    sampled.obs.samples = [⟨true, true, false⟩] ∧
    (Instr.exit2IRTms1, TapState.exit2IR, true, TapState.updateIR) ∈ tapRows := by decide

theorem witness_ObserverRowsIntoUpdateDrOutsidePdicom :
    let s := obsState ⟨.exit1DR, 0x3, 0⟩ idleCodec 0 0 ⟨true, true, false⟩
    let s' := obsState ⟨.exit2DR, 0x5, 0⟩ idleCodec 0 0 ⟨true, true, false⟩
    s.obs.samples = [⟨true, true, false⟩] ∧ s.obs.tap.ir ≠ 0x7 ∧ s'.obs.tap.ir ≠ 0x7 ∧ s'.obs.tap.ir ≠ 0x3 ∧
    (Instr.exit1DRTms1, TapState.exit1DR, true, TapState.updateDR) ∈ tapRows := by decide

theorem witness_ObserverPdicomOpcodeUnit :
    let s' := obsState ⟨.exit1DR, 0x7, 0x7⟩ idleCodec 0x1C0 0 ⟨true, true, false⟩
    sampled.obs.samples = [⟨true, true, false⟩] ∧ sampled.obs.tap.ir = 0x7 ∧ sampled.obs.pdi.opcode = 0xF ∧
    (Instr.exit1DRTms1, TapState.exit1DR, true, TapState.updateDR) ∈ tapRows ∧
    parityOk (sampled.obs.srTdi.extractLsb' 23 9) = true ∧ parityOk (s'.obs.srTdi.extractLsb' 23 9) = false := by
  decide

theorem witness_ObserverPdicomSlotUnit :
    (let s := obsState ⟨.exit1DR, 0x7, 0x7⟩ (codec 7 8 0 0) 0x0C0 0x1C0 ⟨true, true, false⟩
     s.obs.samples = [⟨true, true, false⟩] ∧ s.obs.tap.ir = 0x7 ∧ s.obs.pdi.opcode ≠ 0xF ∧
      s.obs.pdi.opcode.toNat < 8 ∧ 0 < s.obs.pdi.writeRemaining ∧
      parityOk (s.obs.srTdi.extractLsb' 23 9) = true ∧ parityOk (s.obs.srTdo.extractLsb' 23 9) = false) ∧
    (let s := obsState ⟨.exit1DR, 0x7, 0x7⟩ (codec 0 0 1 0) 0x1C0 0x0C0 ⟨true, true, false⟩
     s.obs.samples = [⟨true, true, false⟩] ∧ s.obs.tap.ir = 0x7 ∧ s.obs.pdi.opcode ≠ 0xF ∧
      s.obs.pdi.opcode.toNat < 8 ∧ s.obs.pdi.writeRemaining = 0 ∧
      parityOk (s.obs.srTdi.extractLsb' 23 9) = false ∧ parityOk (s.obs.srTdo.extractLsb' 23 9) = true) ∧
    (let s := obsState ⟨.exit2DR, 0x7, 0x7⟩ (codec 14 0 0 0) 0x0C0 0x1C0 ⟨true, true, false⟩
     s.obs.pdi.opcode ≠ 0xF ∧ s.obs.pdi.writeRemaining = 0 ∧ parityOk (s.obs.srTdo.extractLsb' 23 9) = false) := by
  decide

theorem witness_ObserverCorruptOpcodeTakesProtocolError :
    (Instr.exit2DRTms1, TapState.exit2DR, true, TapState.updateDR) ∈ tapRows ∧
    (let s := obsState ⟨.exit2DR, 0x7, 0x7⟩ (codec 8 1 0 0) 0x0C0 0x1C0 ⟨true, true, false⟩
     s.obs.samples = [⟨true, true, false⟩] ∧ s.obs.tap.ir = 0x7 ∧ 8 ≤ s.obs.pdi.opcode.toNat ∧
      s.obs.pdi.opcode ≠ 0xF ∧ 0 < s.obs.pdi.writeRemaining ∧ parityOk (s.obs.srTdi.extractLsb' 23 9) = true) ∧
    (let s := obsState ⟨.exit2DR, 0x7, 0x7⟩ (codec 14 0 1 0) 0x1C0 0x0C0 ⟨true, true, false⟩
     s.obs.samples = [⟨true, true, false⟩] ∧ s.obs.tap.ir = 0x7 ∧ 8 ≤ s.obs.pdi.opcode.toNat ∧
      s.obs.pdi.opcode ≠ 0xF ∧ s.obs.pdi.writeRemaining = 0 ∧
      parityOk (s.obs.srTdo.extractLsb' 23 9) = true) := by
  decide

theorem witness_DriverRowsWithoutAction :
    State.reset.obs.samples = [] ∧ (Instr.updateDRTms0, TapState.updateDR, false, TapState.idle) ∈ tapRows := by
  decide

theorem witness_DriverCaptureAndShiftRows :
    State.reset.obs.samples = [] ∧
    (Instr.captureDRTms1, TapState.captureDR, true, TapState.exit1DR) ∈ tapRows ∧
    (Instr.shiftDRTms0, TapState.shiftDR, false, TapState.shiftDR) ∈ tapRows ∧
    (Instr.shiftIRTms1, TapState.shiftIR, true, TapState.exit1IR) ∈ tapRows := by decide

theorem witness_DriverRowsWithEntryAction :
    State.reset.obs.samples = [] ∧
    (Instr.resetTms1, TapState.reset, true, TapState.reset) ∈ tapRows ∧
    (Instr.exit1IRTms1, TapState.exit1IR, true, TapState.updateIR) ∈ tapRows ∧
    (Instr.exit2DRTms1, TapState.exit2DR, true, TapState.updateDR) ∈ tapRows := by decide

theorem witness_DriverSequencesAreTheTables :
    1 ≤ 1 ∧ 1 ≤ 32 ∧ (TapState.updateIR = .idle ∨ TapState.updateIR = .updateIR) ∧ 3 ≤ 11 ∧ 11 ≤ 9 + 2 ∧
    (⟨false, false⟩ : Pair) ∈ resetSeq := by decide

theorem witness_FiveHighStepsReachReset :
    (TapState.captureDR, 5) ∈ [(TapState.captureDR, 5)] ∧ 4 < 5 ∧ (TapState.selectIR, 1) ∈ [(TapState.selectIR, 1)] ∧
    0 < 1 := by decide

theorem witness_DriverAcceptsDirectOpcodes :
    State.reset.obs.samples = [] ∧ sizeOk 1 = true ∧ sizeOk 4 = true := by decide

theorem witness_DriverAcceptsPointerOpcodes :
    State.reset.obs.samples = [] ∧ sizeOk 2 = true ∧ sizeOk 4 = true := by decide

theorem witness_DriverAcceptsControlOpcodes :
    State.reset.obs.samples = [] ∧ csAddrOk 0 = true ∧ csAddrOk 15 = true := by decide

theorem witness_DriverAcceptsRepeatAndKey :
    State.reset.obs.samples = [] ∧ 3 ≤ 3 ∧ sizeOk 4 = true ∧ 15 ≤ 15 := by decide

theorem witness_ObserverAcceptsOpcodes :
    sampled.obs.samples = [⟨true, true, false⟩] ∧ sizeOk 4 = true ∧ sizeOk 1 = true ∧ 15 ≤ 15 ∧ 3 ≤ 3 ∧ 0 ≤ 15 := by
  decide

theorem witness_DriverJtagInstructionsCommit : State.reset.obs.samples = [] := rfl

theorem witness_ObserverJtagInstructionsDeliver :
    let s := obsState ⟨.updateDR, 0x7, 0x7⟩ idleCodec 0x1C0 0 ⟨true, true, false⟩
    s.obs.samples = [⟨true, true, false⟩] ∧ s.obs.pdi.opcode = 0xF ∧
    parityOk (s.obs.srTdi.extractLsb' 23 9) = false := by decide

theorem witness_ObserverSynchronisesOnFiveHighSamples :
    let b : BusSample := ⟨true, false, true⟩
    ({ sampled with obs := { sampled.obs with samples := [b, b, b, b, b, ⟨false, true, true⟩] } } : State).obs.samples =
      [b, b, b, b, b, ⟨false, true, true⟩] ∧ b.tms = true := by decide

theorem witness_AdapterWaitsForTheHost :
    atRest (drvState .awaitHeader .none .none 0 ⟨.idle, 0x3, 0⟩ idleCodec [] []) .awaitHeader ∧
    atRest (drvState .awaitOpcode .none .none 0 ⟨.idle, 0x3, 0⟩ idleCodec [] []) .awaitOpcode ∧
    atRest (drvState .run .none .none 0 ⟨.idle, 0x7, 0⟩ (codec 7 8 0 0) [] []) .run ∧
    (codec 7 8 0 0).opcode ≠ 0xF ∧ 0 < (codec 7 8 0 0).writeRemaining :=
  ⟨⟨rfl, rfl, rfl, rfl⟩, ⟨rfl, rfl, rfl, rfl⟩, ⟨rfl, rfl, rfl, rfl⟩, by decide, by decide⟩

theorem witness_AdapterStartsTheDueSlot :
    atRest (drvState .run .none .none 0 ⟨.idle, 0x7, 0⟩ (codec 0 1 1 0) [0x1E] []) .run ∧
    (codec 0 1 1 0).opcode ≠ 0xF ∧ 0 < (codec 0 1 1 0).writeRemaining ∧
    atRest (drvState .run .none .none 0 ⟨.idle, 0x7, 0⟩ (codec 0 0 1 0) [] []) .run ∧
    (codec 0 0 1 0).writeRemaining = 0 ∧ 0 < (codec 0 0 1 0).readRemaining :=
  ⟨⟨rfl, rfl, rfl, rfl⟩, by decide, by decide, ⟨rfl, rfl, rfl, rfl⟩, by decide, by decide⟩

/-- A finished transfer: the task, a codec, and the units sent and received. -/
def finished (k : Task) (c : Codec) (u : Unit9) : State :=
  { State.reset with drv := { Driver.powerOn with adState := .run, task := k, pdi := c, pdiOut := 0x0C0, pdiIn := u } }

theorem witness_FinishedWriteSlotCounts :
    (atRest (finished .sentOpcode (codec 7 8 0 0) 0x1BB) .run ∧
      (finished .sentOpcode (codec 7 8 0 0) 0x1BB).drv.task = .sentOpcode) ∧
    (atRest (finished .sentWrite (codec 6 1 0 0) 0) .run ∧
      (finished .sentWrite (codec 6 1 0 0) 0).drv.task = .sentWrite ∧ (codec 6 1 0 0).opcode.toNat < 8) :=
  ⟨⟨⟨rfl, rfl, rfl, rfl⟩, rfl⟩, ⟨rfl, rfl, rfl, rfl⟩, rfl, by decide⟩

theorem witness_FinishedReadSlotDeliversOrFaults :
    (atRest (finished .sentRead (codec 1 0 1 3) 0x102) .run ∧ (codec 1 0 1 3).opcode.toNat < 8 ∧
      parityOk 0x102 = true) ∧
    (atRest (finished .sentRead (codec 9 0 1 0) 0x1BB) .run ∧
      (finished .sentRead (codec 9 0 1 0) 0x1BB).drv.task = .sentRead ∧ parityOk 0x1BB = false) :=
  ⟨⟨⟨rfl, rfl, rfl, rfl⟩, by decide, by decide⟩, ⟨rfl, rfl, rfl, rfl⟩, rfl, by decide⟩

theorem witness_CorruptOpcodeTakesProtocolError :
    atRest (finished .sentWrite (codec 8 1 0 0) 0) .run ∧ 8 ≤ (codec 8 1 0 0).opcode.toNat ∧
    atRest (finished .sentRead (codec 0xF 0 0 0) 0x102) .run ∧ 8 ≤ (codec 0xF 0 0 0).opcode.toNat ∧
    (finished .sentRead (codec 0xF 0 0 0) 0x102).drv.task = .sentRead ∧ parityOk 0x102 = true :=
  ⟨⟨rfl, rfl, rfl, rfl⟩, by decide, ⟨rfl, rfl, rfl, rfl⟩, by decide, rfl, by decide⟩

theorem witness_IdCodeRespondsMostSignificantFirst : atRest (finished .finishIdCode idleCodec 0) .run := ⟨rfl, rfl, rfl, rfl⟩

theorem witness_ResetCommandResynchronises :
    (let s := drvState .awaitHeader .none .none 0 ⟨.shiftDR, 0x7, 0⟩ (codec 0xF 0 0 5) [0x1E] []
     atRest s .awaitHeader ∧ s.drv.hostIn = [0x1E]) ∧
    (drvState .awaitHeader .none .none 0 ⟨.idle, 0x7, 0⟩ idleCodec [0x1E] []).drv.tap.state = .idle ∧
    State.reset.drv.tap.state = .reset :=
  ⟨⟨⟨rfl, rfl, rfl, rfl⟩, rfl⟩, rfl, rfl⟩

theorem witness_PdiTransferExchangesOneUnit :
    (let s := drvState .run .sentOpcode .pdiTransfer 9 ⟨.idle, 0x7, 0x7⟩ (codec 6 1 0 0) []
        ([false, false, true] ++ List.replicate 9 true ++ [false, true] ++ [true])
     s.obs.samples = [] ∧ s.drv.op = .pdiTransfer ∧ s.drv.idx = 9 ∧ s.drv.tap.ir = 0x7 ∧
      s.drv.tap.state = .idle ∧ (List.replicate 9 true).length = 9 ∧
      s.drv.tdoIn = [false, false, true] ++ List.replicate 9 true ++ [false, true] ++ [true]) ∧
    (let s := drvState .run .sentOpcode .pdiTransfer 0 ⟨.idle, 0x3, 0⟩ (codec 6 1 0 0) []
        (List.replicate 12 false ++ List.replicate 9 true ++ [false, true] ++ [])
     s.obs.samples = [] ∧ s.drv.op = .pdiTransfer ∧ s.drv.idx = 0 ∧ s.drv.tap.state = .idle ∧
      (List.replicate 12 false).length = 12 ∧
      s.drv.tdoIn = List.replicate 12 false ++ List.replicate 9 true ++ [false, true] ++ []) := by decide

theorem witness_IdCodeCommandReturnsTheCapturedWord :
    (let s := drvState .awaitHeader .none .none 0 ⟨.idle, 0x3, 0⟩ idleCodec [0x10]
        ([false, false, true] ++ (List.range 32).map (fun k => (0x6984203F : Word32).getLsbD k) ++ [false, true] ++ [])
     atRest s .awaitHeader ∧ s.drv.hostIn = [0x10] ∧ s.drv.tap.ir = 0x3 ∧ s.drv.tap.state = .idle) ∧
    (let s := drvState .awaitHeader .none .none 0 ⟨.idle, 0x7, 0⟩ idleCodec [0x10]
        (List.replicate 12 true ++ (List.range 32).map (fun k => (0x6984203F : Word32).getLsbD k) ++ [false, true] ++
          [true])
     atRest s .awaitHeader ∧ s.drv.hostIn = [0x10] ∧ s.drv.tap.ir ≠ 0x3 ∧ s.drv.tap.state = .idle) :=
  ⟨⟨⟨rfl, rfl, rfl, rfl⟩, rfl, rfl, rfl⟩, ⟨rfl, rfl, rfl, rfl⟩, rfl, by decide, rfl⟩

theorem witness_ShiftedBitsStandAtTheTopInOrder :
    (List.replicate 32 true).length ≤ 32 ∧ 31 < (List.replicate 32 true).length ∧
    0 < 32 - (List.replicate 9 true).length := by decide

theorem witness_WriteSlotsComeBeforeReadSlots :
    0 < (codec 0 4 4 0).writeRemaining ∧
    ((codec 0 0 4 0).writeRemaining = 0 ∧ 0 < (codec 0 0 4 0).readRemaining) ∧
    ((codec 0xF 0 0 0).writeRemaining = 0 ∧ (codec 0xF 0 0 0).readRemaining = 0) := by decide

theorem witness_SettleReloadsOrEnds :
    0 < (codec 0 4 4 0).writeRemaining ∧
    (let c := codec 1 0 0 3
     c.writeRemaining = 0 ∧ c.readRemaining = 0 ∧ c.opcode = 1 ∧ c.repeatCount ≠ 0) ∧
    ((codec 3 0 0 1).opcode = 3 ∧ (codec 3 0 0 1).repeatCount ≠ 0) ∧
    ((codec 3 0 0 0).opcode = 3 ∧ (codec 3 0 0 0).repeatCount = 0) ∧ (codec 5 0 0 0).opcode = 5 ∧
    (let c := codec 7 0 0 1
     c.opcode ≠ 1 ∧ c.opcode ≠ 3 ∧ c.opcode ≠ 5) := by decide

theorem witness_SlotsCountDownThenSettle : (codec 2 1 0 0).opcode ≠ 5 ∧ (codec 5 1 0 0).opcode = 5 := by decide

theorem witness_RepeatOperandIsLeastSignificantFirst :
    (1 ≤ [0xFF#8].length ∧ [0xFF#8].length ≤ 4) ∧ (List.replicate 4 (0xFF#8)).length ≤ 4 := by decide

theorem witness_CountTableRows : sizeOk 1 = true ∧ sizeOk 4 = true ∧ 15 ≤ 15 ∧ 3 ≤ 3 := by decide

theorem witness_TransactionTotalsMatchTheCountTable :
    let s := drvState .awaitOpcode .none .none 0 ⟨.idle, 0x7, 0x7⟩ (codec 0xF 0 0 2) [] []
    s.obs.samples = [] ∧ s.drv.pdi.opcode = 0xF ∧ counts 0x24 s.drv.pdi.repeatCount.toNat = (0, 3) ∧
      0 + 3 ≤ [0xAA#8, 0xBB#8, 0xCC#8].length ∧
      after (exec (decodeOpcode 0x24) s) (fun t => t.drv.pdi.opcode == 1) = true := by decide

theorem witness_ParityDetectsEverySingleBitFlip : parityOk 0x0C0 = true ∧ 0 < 9 ∧ 8 < 9 ∧ 0 ≠ 8 := by decide

/-- A Driver in a write slot of a KEY, an Observer in a read slot of an LDS, both codecs running. -/
def midway : State :=
  { drv := (drvState .run .none .none 0 ⟨.idle, 0x7, 0x7⟩ (codec 7 8 0 1) [0x55] []).drv,
    obs := (obsState ⟨.exit1DR, 0x7, 0x7⟩ (codec 0 0 4 0) 0 0 ⟨true, true, false⟩).obs }

theorem codec_ok_key : (codec 7 8 0 1).Ok := by constructor <;> decide
theorem codec_ok_lds : (codec 0 0 4 0).Ok := by constructor <;> decide

theorem witness_StepKeepsTheStateLegal : ∃ t, midway.Legal ∧ step midway = .next t := by
  obtain ⟨t, h⟩ := step_next midway
  exact ⟨t, ⟨codec_ok_key, codec_ok_lds, rfl, fun _ => rfl, rfl, by decide, rfl⟩, h⟩

theorem witness_NoStepReportsAProtocolError : ∃ t, midway.Legal ∧ midway.noProtocolError ∧ step midway = .next t := by
  obtain ⟨t, hl, h⟩ := witness_StepKeepsTheStateLegal
  exact ⟨t, hl, ⟨fun _ h => absurd h List.not_mem_nil, fun _ _ h => absurd h List.not_mem_nil⟩, h⟩

theorem witness_StepKeepsTheDriverAligned : ∃ t, midway.drv.Aligned ∧ step midway = .next t := by
  obtain ⟨t, h⟩ := step_next midway
  exact ⟨t, ⟨rfl, fun _ => .inr rfl, fun h => absurd h (by decide)⟩, h⟩

theorem witness_SentUnitsHaveGoodParity :
    (∃ t, step midway = .next t ∧ midway.drv.op ≠ .pdiTransfer ∧ parityOk midway.drv.pdiOut = true) ∧
    (let s := drvState .run .none .none 0 ⟨.idle, 0x7, 0x7⟩ (codec 6 1 0 0) [0x55] []
     s.drv.op ≠ .pdiTransfer ∧ after (step s) (fun t => t.drv.op == .pdiTransfer) = true) ∧
    (let s := drvState .run .sentWrite .pdiTransfer 9 ⟨.idle, 0x7, 0x7⟩ (codec 6 1 0 0) [] [true]
     s.drv.op = .pdiTransfer ∧ parityOk s.drv.pdiOut = true ∧
      after (step s) (fun t => t.drv.op == .pdiTransfer) = true) := by
  obtain ⟨t, h⟩ := step_next midway
  exact ⟨⟨t, h, by decide, by decide⟩, by decide, by decide⟩

theorem witness_BusStepsAndHostBytesDoNotMix :
    (let s := drvState .run .sentOpcode .pdiTransfer 22 ⟨.updateDR, 0x7, 0x7⟩ (codec 6 1 0 0) [0x1E] [true]
     s.obs.samples = [] ∧ s.drv.op ≠ .none ∧ after (step s) (fun t => t.drv.hostIn == [0x1E]) = true) ∧
    (let s := drvState .run .none .none 0 ⟨.idle, 0x7, 0x7⟩ (codec 6 1 0 0) [0x1E] [true]
     s.obs.samples = [] ∧ s.drv.op = .none ∧ after (step s) (fun t => t.drv.hostIn == []) = true) := by decide

/-- UPDATE-IR latches PDICOM in an Observer; the Reset sequence latches IDCODE in a Driver. -/
theorem witness_LatchedCodeChangesOnlyOnEntry :
    (let s := obsState ⟨.exit1IR, 0x3, 0x7⟩ idleCodec 0 0 ⟨true, true, false⟩
     after (step s) (fun t => t.obs.tap.ir != s.obs.tap.ir) = true) ∧
    (let s := drvState .run .finishReset .reset 3 ⟨.selectIR, 0x7, 0x7⟩ idleCodec [] [true]
     after (step s) (fun t => t.drv.tap.ir != s.drv.tap.ir) = true) := by decide

theorem witness_InstancesAreIndependent :
    midway.obs.samples ≠ [] ∧ midway.drv = ({ midway with obs := Observer.powerOn } : State).drv ∧
    midway.obs = ({ midway with drv := Driver.powerOn } : State).obs ∧
    Observer.powerOn.samples = [] := ⟨by decide, rfl, rfl, rfl⟩

/-- One bus step of a Driver, and an Observer at its starting point fed that step's triple. -/
theorem witness_ObserverFollowsADriver :
    let s := drvState .run .finishReset .reset 5 ⟨.reset, 0x3, 0⟩ idleCodec [] [true]
    s.obs.samples = [] ∧
      after (runs 1 s) (fun t => t.drv.bus == [⟨false, false, true⟩] &&
        (obsState s.drv.tap idleCodec 0 0 ⟨false, false, true⟩).obs.samples == t.drv.bus.drop s.drv.bus.length) =
        true := by decide

theorem witness_CodecsAgreeAfterEachUnit :
    (let s := drvState .awaitOpcode .none .none 0 ⟨.idle, 0x3, 0⟩ idleCodec [0xC0] []
     s.drv.tap.state = .idle ∧ 23 = (if s.drv.tap.ir = 0x7 then 14 else 23) ∧ atRest s .awaitOpcode ∧
      s.drv.pdi.opcode = 0xF ∧ s.drv.hostIn = [0xC0]) ∧
    (let s := drvState .run .none .none 0 ⟨.idle, 0x7, 0⟩ (codec 7 8 0 0) [0x55] []
     14 = (if s.drv.tap.ir = 0x7 then 14 else 23) ∧ atRest s .run ∧ s.drv.pdi.opcode.toNat < 8 ∧
      0 < s.drv.pdi.writeRemaining ∧ s.drv.hostIn = [0x55]) ∧
    (let s := drvState .run .none .none 0 ⟨.idle, 0x7, 0⟩ (codec 0 0 4 0) [] []
     atRest s .run ∧ s.drv.pdi.opcode.toNat < 8 ∧ s.drv.pdi.writeRemaining = 0 ∧ 0 < s.drv.pdi.readRemaining) :=
  ⟨⟨rfl, rfl, ⟨rfl, rfl, rfl, rfl⟩, rfl, rfl⟩, ⟨rfl, ⟨rfl, rfl, rfl, rfl⟩, by decide, by decide, rfl⟩,
    ⟨rfl, rfl, rfl, rfl⟩, by decide, rfl, by decide⟩

/-- A waiting Driver is legal and aligned, between two units, and so it is after a step; nothing was driven. -/
theorem witness_CodecsAgreeBetweenUnits :
    let s := drvState .awaitHeader .none .none 0 ⟨.idle, 0x3, 0⟩ idleCodec [0x11] []
    s.obs.samples = [] ∧ s.Legal ∧ s.drv.Aligned ∧ s.drv.op = .none ∧ s.drv.task = .none ∧
      after (runs 1 s) (fun t => t.drv.op == .none && t.drv.task == .none && t.drv.adState == .awaitOpcode &&
        t.drv.bus == s.drv.bus) = true :=
  ⟨rfl, ⟨by constructor <;> decide, by constructor <;> decide, rfl, fun _ => rfl, rfl, rfl, rfl, rfl⟩,
    ⟨rfl, fun _ => .inl rfl, fun h => absurd h (by decide)⟩, rfl, rfl, by decide⟩

theorem witness_EncodedLinesAreWholePdiCommands :
    encodeLine params (some 1) (.st none .indirectInc [0xDE, 0xAD]) = .bytes [0x11, 0x64, 0xDE, 0xAD] none ∧
    encodeLine params none (.lds .u32 0x78563412) = .bytes [0x11, 0x0F, 0x12, 0x34, 0x56, 0x78] none := by
  decide

end Sys2Proof.Tests
end

/-! # Proofs about the state (10_state.md)

O47 and O48: the invariant `State.Legal`, first for a codec, then for an Observer, then for a Driver. O55: a step
commutes with an exchange of the other side. O54: the latched code. -/

/-! ## Legal codecs -/

namespace Sys2Proof.Machine

open Sys2Proof

theorem Codec.powerOn_ok : Codec.powerOn.Ok := by constructor <;> decide

theorem Codec.opcode_ne_idle {o : BitVec 4} (h : o.toNat < 8) : o ≠ 0xF := by
  rintro rfl; exact absurd h (by decide)

/-- A codec that is not idle has one of the eight opcodes to dispatch on (44_pdi_codec.md R201). -/
theorem Codec.Ok.dispatch {c : Codec} (h : c.Ok) (hn : c.opcode ≠ 0xF) : c.opcode.toNat < 8 :=
  h.opcode.resolve_right hn

theorem Codec.Ok.abort {c : Codec} (h : c.Ok) : c.abort.Ok where
  opcode := .inr rfl
  sizeA := h.sizeA
  sizeB := h.sizeB
  writes := Nat.zero_le 8
  reads := Nat.zero_le 4
  idle := fun _ => ⟨rfl, rfl, rfl⟩
  running := fun hn => absurd rfl hn

/-- Accepting an opcode with loads in range, at least one slot among them, makes any codec legal. -/
theorem Codec.accept_ok {o : BitVec 4} {a b w r : Nat} (ho : o.toNat < 8) (ha : sizeOk a = true)
    (hb : sizeOk b = true) (hw : w ≤ 8) (hr : r ≤ 4) (hs : 0 < w ∨ 0 < r) (c : Codec) :
    (c.accept o a b w r).Ok where
  opcode := .inl ho
  sizeA := of_decide_eq_true ha
  sizeB := of_decide_eq_true hb
  writes := hw
  reads := hr
  idle := fun hi => absurd hi (Codec.opcode_ne_idle ho)
  running := fun _ => hs

/-- `Settle` restores legality after a slot was counted: what it asks of the codec says nothing of pending slots. -/
theorem Codec.settle_ok {c : Codec} (ho : c.opcode.toNat < 8) (ha : 1 ≤ c.sizeA ∧ c.sizeA ≤ 4)
    (hb : 1 ≤ c.sizeB ∧ c.sizeB ≤ 4) (hw : c.writeRemaining ≤ 8) (hr : c.readRemaining ≤ 4) :
    c.settle.1.Ok := by
  have hn := Codec.opcode_ne_idle ho
  rcases settle_cases c with ⟨hs, he⟩ | ⟨hw0, hr0, hop, -, he⟩ | ⟨hw0, hr0, -, he⟩ <;> rw [he]
  · exact ⟨.inl ho, ha, hb, hw, hr, fun hi => absurd hi hn, fun _ => hs⟩
  · have hreads : c.reload.readRemaining ≤ 4 := by unfold Codec.reload; dsimp only; split <;> omega
    have hwrites : c.reload.writeRemaining ≤ 8 := by unfold Codec.reload; dsimp only; split <;> omega
    have hslot : 0 < c.reload.writeRemaining ∨ 0 < c.reload.readRemaining := by
      rcases hop with h1 | h3
      · right; simp only [Codec.reload, h1, if_true]; omega
      · left; simp only [Codec.reload, h3, if_true]; omega
    exact ⟨.inl ho, ha, hb, hwrites, hreads, fun hi => absurd hi hn, fun _ => hslot⟩
  · have hc : ∃ n, c.captureRepeat = { c with repeatCount := n } := by
      unfold Codec.captureRepeat; split <;> exact ⟨_, rfl⟩
    obtain ⟨n, hc⟩ := hc
    rw [hc]
    exact ⟨.inr rfl, ha, hb, hw, hr, fun _ => ⟨hw0, hr0, rfl⟩, fun hi => absurd rfl hi⟩

theorem Codec.Ok.writeSlot {c : Codec} (h : c.Ok) (hn : c.opcode ≠ 0xF) (b : Byte) : (c.writeSlot b).1.Ok :=
  Codec.settle_ok (c := c.countWrite b) (h.dispatch hn) h.sizeA h.sizeB ((Nat.sub_le _ _).trans h.writes) h.reads

theorem Codec.Ok.readSlot {c : Codec} (h : c.Ok) (hn : c.opcode ≠ 0xF) (b : Byte) : (c.readSlot b).1.Ok :=
  Codec.settle_ok (c := c.countRead) (h.dispatch hn) h.sizeA h.sizeB h.writes ((Nat.sub_le _ _).trans h.reads)

/-! ## Accepting a byte -/

theorem sizeOk_iff (n : Nat) : sizeOk n = true ↔ 1 ≤ n ∧ n ≤ 4 := decide_eq_true_iff

theorem sizeOk_sizeAOf (b : Byte) : sizeOk (sizeAOf b) = true := by
  have := (b.extractLsb' 2 2).isLt
  rw [sizeOk_iff, sizeAOf]; omega

theorem sizeOk_sizeBOf (b : Byte) : sizeOk (sizeBOf b) = true := by
  have := (b.extractLsb' 0 2).isLt
  rw [sizeOk_iff, sizeBOf]; omega

theorem sizeOk_sizeAOfLow (n : Nat) : sizeOk (sizeAOfLow n) = true := by
  rw [sizeOk_iff, sizeAOfLow]; omega

theorem sizeOk_sizeBOfLow (n : Nat) : sizeOk (sizeBOfLow n) = true := by
  rw [sizeOk_iff, sizeBOfLow]; omega

/-- Accepting a raw byte is `Accept` with one of the eight opcodes and with loads that make any codec legal
(44_pdi_codec.md R183 to R191), the same ones in both roles and in every state. -/
theorem acceptByte_cases (b : Byte) : ∃ (byte : Byte) (o : BitVec 4) (x y w n : Nat),
    o.toNat < 8 ∧ (∀ c : Codec, (c.accept o x y w n).Ok) ∧
      ∀ (r : Role) (s : State), acceptByte r b s = acceptOpcode r byte o x y w n s := by
  have hA := sizeOk_sizeAOf b
  have hB := sizeOk_sizeBOf b
  obtain ⟨hA1, hA4⟩ := (sizeOk_iff _).mp hA
  obtain ⟨hB1, hB4⟩ := (sizeOk_iff _).mp hB
  have hL := sizeOk_sizeAOfLow (csAddrOf b)
  have hM := sizeOk_sizeBOfLow (csAddrOf b)
  have hU : sizeOk (sizeAOf b - 1 + 1) = true := by rwa [Nat.sub_add_cancel hA1]
  have hd : decodeOpcode b = _ := decodeOpcode.eq_def b
  split at hd
  · refine ⟨_, 0, _, _, sizeAOf b, sizeBOf b, by decide, ?_, fun r s => by simp only [acceptByte, hd]; rfl⟩
    exact Codec.accept_ok (by decide) hA hB (by omega) (by omega) (by omega)
  · refine ⟨_, 1, _, _, 0, sizeBOf b, by decide, ?_, fun r s => by simp only [acceptByte, hd]; rfl⟩
    exact Codec.accept_ok (by decide) hA hB (by omega) (by omega) (by omega)
  · refine ⟨_, 2, _, _, sizeAOf b + sizeBOf b, 0, by decide, ?_, fun r s => by simp only [acceptByte, hd]; rfl⟩
    exact Codec.accept_ok (by decide) hA hB (by omega) (by omega) (by omega)
  · refine ⟨_, 3, _, _, sizeBOf b, 0, by decide, ?_, fun r s => by simp only [acceptByte, hd]; rfl⟩
    exact Codec.accept_ok (by decide) hA hB (by omega) (by omega) (by omega)
  · refine ⟨_, 4, _, _, 0, 1, by decide, ?_, fun r s => by simp only [acceptByte, hd]; rfl⟩
    exact Codec.accept_ok (by decide) hL hM (by omega) (by omega) (by omega)
  · refine ⟨_, 5, _, _, sizeBOf b, 0, by decide, ?_, fun r s => by simp only [acceptByte, hd]; rfl⟩
    exact Codec.accept_ok (by decide) hU hB (by omega) (by omega) (by omega)
  · refine ⟨_, 6, _, _, 1, 0, by decide, ?_, fun r s => by simp only [acceptByte, hd]; rfl⟩
    exact Codec.accept_ok (by decide) hL hM (by omega) (by omega) (by omega)
  · refine ⟨_, 7, _, _, 8, 0, by decide, ?_, fun r s => by simp only [acceptByte, hd]; rfl⟩
    exact Codec.accept_ok (by decide) hL hM (by omega) (by omega) (by omega)

/-! ## The Observer's codec stays legal -/

theorem acceptByte_observer_codec_ok (b : Byte) (s : State) : (acceptByte .observer b s).obs.pdi.Ok := by
  obtain ⟨byte, o, x, y, w, n, -, hok, heq⟩ := acceptByte_cases b
  rw [heq]
  exact hok _

theorem writeSlot_observer_codec_ok {s : State} (h : s.obs.pdi.Ok) (hn : s.obs.pdi.opcode ≠ 0xF) (u : Unit9) :
    (writeSlot .observer u s).obs.pdi.Ok := by
  rw [writeSlot_observer, if_pos (h.dispatch hn)]
  exact h.writeSlot hn (unitData u)

theorem readSlot_observer_codec_ok {s : State} (h : s.obs.pdi.Ok) (hn : s.obs.pdi.opcode ≠ 0xF) (u : Unit9) :
    (readSlot .observer u s).obs.pdi.Ok := by
  rw [readSlot_observer, if_pos (h.dispatch hn)]
  exact h.readSlot hn (unitData u)

theorem observeUnit_codec_ok {s : State} (h : s.obs.pdi.Ok) (u v : Unit9) : (observeUnit u v s).obs.pdi.Ok := by
  unfold observeUnit
  split_ifs with hi
  · exact acceptByte_observer_codec_ok _ _
  · exact h.abort
  · exact writeSlot_observer_codec_ok h hi u
  · exact h.abort
  · exact readSlot_observer_codec_ok h hi v
  · exact h.abort

theorem updateDR_observer_codec_ok {s : State} (h : s.obs.pdi.Ok) : (updateDR .observer s).obs.pdi.Ok := by
  unfold updateDR
  split
  · exact h
  · exact observeUnit_codec_ok (s := emitCaptured 0x7 s) h _ _
  · exact h
  · exact h

theorem entryAction_observer_codec_ok {s : State} (h : s.obs.pdi.Ok) (n : TapState) :
    (entryAction .observer n s).obs.pdi.Ok := by
  unfold entryAction
  split
  · exact h.abort
  · exact h
  · exact updateDR_observer_codec_ok h
  · exact h

theorem stateAction_codecOf (r q : Role) (p : TapState) (tdi tdo : Bool) (s : State) :
    (stateAction r p tdi tdo s).codecOf q = s.codecOf q := by
  unfold stateAction
  split <;> cases r <;> cases q <;> rfl

theorem observerTap_codec_ok {s : State} (h : s.obs.pdi.Ok) (p : TapState) (tms : Bool) (b : BusSample) :
    (observerTap p tms b s).obs.pdi.Ok := by
  refine entryAction_observer_codec_ok (s := moveTap .observer _ (stateAction .observer p b.tdi b.tdo s)) ?_ _
  have hc := stateAction_codecOf .observer .observer p b.tdi b.tdo s
  exact (congrArg Codec.Ok hc).mpr h

/-! ## The Driver stays legal -/

/-- What `State.Legal` asks of a Driver. -/
structure Driver.Legal (d : Driver) : Prop where
  codec : d.pdi.Ok
  adapter : d.AdapterOk

theorem State.legal_iff (s : State) : s.Legal ↔ s.drv.Legal ∧ s.obs.pdi.Ok :=
  ⟨fun ⟨hd, ho, ha⟩ => ⟨⟨hd, ha⟩, ho⟩, fun ⟨⟨hd, ha⟩, ho⟩ => ⟨hd, ho, ha⟩⟩

/-- A Driver with a legal codec between two operations: none runs and none is to be finished. -/
structure Driver.Quiet (d : Driver) : Prop where
  codec : d.pdi.Ok
  op : d.op = .none
  complete : d.complete = false
  task : d.task = .none
  inBuf : d.inBuf = none

/-- A quiet Driver with an idle codec is legal while it waits for a header or an opcode. -/
theorem Driver.Quiet.legal_of_waits {d : Driver} (h : d.Quiet) (hi : d.pdi.opcode = 0xF) (ha : d.adState ≠ .run) :
    d.Legal := by
  refine ⟨h.codec, h.inBuf, fun _ => h.complete, ?_⟩
  cases hA : d.adState with
  | run => exact absurd hA ha
  | awaitHeader => exact ⟨hi, h.op, h.complete, h.task⟩
  | awaitOpcode => exact ⟨hi, h.op, h.complete, h.task⟩

/-- A quiet Driver with a running transaction is legal inside `Run`. -/
theorem Driver.Quiet.legal_of_run {d : Driver} (h : d.Quiet) (hn : d.pdi.opcode ≠ 0xF) (ha : d.adState = .run) :
    d.Legal := by
  refine ⟨h.codec, h.inBuf, fun _ => h.complete, ?_⟩
  rw [ha, h.task]
  exact ⟨h.op, hn, h.complete⟩

/-- A legal Driver that waits for a header or an opcode is quiet and its codec idle. -/
theorem Driver.Legal.quiet_of_waits {d : Driver} (h : d.Legal) (ha : d.adState ≠ .run) :
    d.Quiet ∧ d.pdi.opcode = 0xF := by
  obtain ⟨hc, hb, -, hm⟩ := h
  cases hA : d.adState with
  | run => exact absurd hA ha
  | awaitHeader =>
    rw [hA] at hm
    obtain ⟨hi, ho, hcomp, ht⟩ := hm
    exact ⟨⟨hc, ho, hcomp, ht, hb⟩, hi⟩
  | awaitOpcode =>
    rw [hA] at hm
    obtain ⟨hi, ho, hcomp, ht⟩ := hm
    exact ⟨⟨hc, ho, hcomp, ht, hb⟩, hi⟩

/-! ### The end of an operation -/

theorem loopTest_of_idle {s : State} (h : s.drv.pdi.opcode = 0xF) : loopTest s = endCommand s := if_pos h

theorem loopTest_of_running {s : State} (h : s.drv.pdi.opcode ≠ 0xF) : loopTest s = s := if_neg h

theorem finishRead_of_good {s : State} (h : parityOk s.drv.pdiIn = true) :
    finishRead s = loopTest (readSlot .driver s.drv.pdiIn (handOver s)) := if_pos h

theorem finishRead_of_bad {s : State} (h : ¬ parityOk s.drv.pdiIn = true) :
    finishRead s = raise .driver (.parityError s.drv.pdiIn .read) s.drv.pdiIn (handOver s) := if_neg h

theorem handOver_quiet {s : State} (h : s.drv.Legal) (ho : s.drv.op = .none) : (handOver s).drv.Quiet :=
  ⟨h.codec, ho, rfl, rfl, h.adapter.1⟩

theorem endCommand_legal {s : State} (h : s.drv.Quiet) (hi : s.drv.pdi.opcode = 0xF) : (endCommand s).drv.Legal :=
  Driver.Quiet.legal_of_waits (d := (endCommand s).drv) ⟨h.codec, h.op, h.complete, h.task, h.inBuf⟩ hi nofun

theorem loopTest_legal {s : State} (h : s.drv.Quiet) (ha : s.drv.adState = .run) : (loopTest s).drv.Legal := by
  by_cases hi : s.drv.pdi.opcode = 0xF
  · rw [loopTest_of_idle hi]; exact endCommand_legal h hi
  · rw [loopTest_of_running hi]; exact h.legal_of_run hi ha

theorem finishWrite_legal {s : State} (h : s.drv.Legal) (ho : s.drv.op = .none) (ha : s.drv.adState = .run)
    (hn : s.drv.pdi.opcode ≠ 0xF) : (finishWrite s).drv.Legal := by
  have hd : (handOver s).drv.pdi.opcode.toNat < 8 := h.codec.dispatch hn
  unfold finishWrite
  rw [writeSlot_driver, if_pos hd]
  exact loopTest_legal ⟨h.codec.writeSlot hn (unitData s.drv.pdiOut), ho, rfl, rfl, h.adapter.1⟩ ha

/-- With a bad unit the command ends in a fault, which leaves the Driver as quiet as an orderly end (R227, R260). -/
theorem finishRead_legal {s : State} (h : s.drv.Legal) (ho : s.drv.op = .none) (ha : s.drv.adState = .run)
    (hn : s.drv.pdi.opcode ≠ 0xF) : (finishRead s).drv.Legal := by
  have hd : (handOver s).drv.pdi.opcode.toNat < 8 := h.codec.dispatch hn
  by_cases hp : parityOk s.drv.pdiIn = true
  · rw [finishRead_of_good hp, readSlot_driver, if_pos hd]
    exact loopTest_legal ⟨h.codec.readSlot hn (unitData s.drv.pdiIn), ho, rfl, rfl, h.adapter.1⟩ ha
  · rw [finishRead_of_bad hp]
    exact Driver.Quiet.legal_of_waits ⟨h.codec.abort, ho, rfl, rfl, h.adapter.1⟩ rfl nofun

/-! ### The start of an operation -/

theorem startWrite_legal {s : State} (h : s.drv.Legal) (hq : s.drv.Quiet) (hn : s.drv.pdi.opcode ≠ 0xF)
    (hw : 0 < s.drv.pdi.writeRemaining) : (startWrite s).drv.Legal := by
  cases hin : s.drv.hostIn with
  | nil => rwa [startWrite_of_empty hq.inBuf hin]
  | cons d rest =>
    rw [startWrite_of_cons hq.inBuf hin]
    exact ⟨hq.codec, rfl, fun _ => hq.complete, .inr rfl, hn, hw⟩

theorem startRead_legal {s : State} (hq : s.drv.Quiet) (ha : s.drv.adState = .run) (hn : s.drv.pdi.opcode ≠ 0xF)
    (hw : s.drv.pdi.writeRemaining = 0) (hr : 0 < s.drv.pdi.readRemaining) : (startRead s).drv.Legal := by
  refine ⟨hq.codec, hq.inBuf, fun _ => hq.complete, ?_⟩
  have hA : (startRead s).drv.adState = .run := ha
  rw [hA]
  exact ⟨.inr rfl, hn, hw, hr⟩

theorem nextSlotAction_legal {s : State} (h : s.drv.Legal) (hq : s.drv.Quiet) (ha : s.drv.adState = .run)
    (hn : s.drv.pdi.opcode ≠ 0xF) : (nextSlotAction s).drv.Legal := by
  unfold nextSlotAction Codec.nextSlot
  rw [if_neg hn]
  split_ifs with hw hr
  · exact startWrite_legal h hq hn hw
  · exact startRead_legal hq ha hn (Nat.eq_zero_of_not_pos hw) hr
  · exact h

/-- The adapter's actions in `Run` keep a Driver legal, one case per task. -/
theorem adapterRun_legal {s : State} (h : s.drv.Legal) (ho : s.drv.op = .none) (ha : s.drv.adState = .run) :
    (adapterRun s).drv.Legal := by
  obtain ⟨hb, -, hm⟩ := h.adapter
  have hq := handOver_quiet h ho
  unfold adapterRun
  rw [ha] at hm
  cases ht : s.drv.task <;> rw [ht] at hm
  case finishReset => exact endCommand_legal ⟨hq.codec, hq.op, rfl, rfl, hb⟩ hm.2
  case finishIdCode => exact endCommand_legal ⟨hq.codec, hq.op, rfl, rfl, hb⟩ hm.2
  case sentOpcode => exact hq.legal_of_run hm.2 ha
  case sentWrite =>
    obtain ⟨-, hn, -⟩ := hm
    exact finishWrite_legal h ho ha hn
  case sentRead =>
    obtain ⟨-, hn, -⟩ := hm
    exact finishRead_legal h ho ha hn
  case none =>
    obtain ⟨-, hn, hcomp⟩ := hm
    exact nextSlotAction_legal h ⟨h.codec, ho, hcomp, ht, hb⟩ ha hn

/-! ### Host bytes -/

theorem headerEffect_obs (b : Byte) (s : State) : (headerEffect b s).obs = s.obs := by
  unfold headerEffect; split_ifs <;> rfl

/-- A header byte taken into the buffer of a waiting Driver begins its command or is dropped. -/
theorem headerEffect_hostRead_legal {s : State} (hq : s.drv.Quiet) (hi : s.drv.pdi.opcode = 0xF) (b : Byte) :
    (headerEffect b s.hostRead).drv.Legal := by
  obtain ⟨o, l, hr⟩ := hostRead_frame s
  rw [hr]
  unfold headerEffect
  split_ifs
  · exact ⟨hq.codec.abort, rfl, fun _ => hq.complete, .inr rfl, rfl⟩
  · exact ⟨hq.codec, rfl, fun _ => hq.complete, .inr rfl, hi⟩
  · exact Driver.Quiet.legal_of_waits ⟨hq.codec, hq.op, hq.complete, hq.task, rfl⟩ hi nofun
  · exact Driver.Quiet.legal_of_waits ⟨hq.codec, hq.op, hq.complete, hq.task, rfl⟩ hi nofun

theorem acceptByte_hostRead_legal {s : State} (hq : s.drv.Quiet) (b : Byte) :
    (acceptByte .driver b s.hostRead).drv.Legal := by
  obtain ⟨byte, op, x, y, w, n, hop, hok, heq⟩ := acceptByte_cases b
  obtain ⟨o, l, hr⟩ := hostRead_frame s
  rw [heq, hr]
  exact ⟨hok _, rfl, fun _ => hq.complete, .inr rfl, Codec.opcode_ne_idle hop⟩

/-! ### Bus steps -/

/-- The sequencer moves on inside `Run` only, where the end of the operation is waited for. -/
theorem advance_legal {s : State} (h : s.drv.Legal) (ho : s.drv.op ≠ .none) : (advance s).drv.Legal := by
  obtain ⟨hc, hb, hcomp, hm⟩ := h
  have hrun : s.drv.adState = .run := by
    by_contra ha
    exact ho (Driver.Legal.quiet_of_waits ⟨hc, hb, hcomp, hm⟩ ha).1.op
  unfold advance
  split
  · refine ⟨hc, hb, fun hn => absurd rfl hn, ?_⟩
    dsimp only
    rw [hrun] at hm ⊢
    cases ht : s.drv.task <;> rw [ht] at hm
    case none => exact absurd hm.1 ho
    all_goals exact ⟨.inl rfl, hm.2⟩
  · refine ⟨hc, hb, fun _ => rfl, ?_⟩
    dsimp only
    rw [hrun] at hm ⊢
    cases ht : s.drv.task <;> rw [ht] at hm
    case none => exact absurd hm.1 ho
    all_goals exact hm

theorem driverTap_legal {s : State} (h : s.drv.Legal) (ho : s.drv.op ≠ .none) (p : TapState) (tms : Bool) :
    (driverTap p tms s).drv.Legal := by
  obtain ⟨t, sr, u, id, bus, td, ev, heq⟩ := driverTap_frame p tms s
  rw [heq]
  exact advance_legal ⟨h.codec, h.adapter⟩ ho

/-! ## The invariant -/

/-- Settles O47: both codecs are idle and the adapter awaits a header. -/
theorem resetStateIsLegal : Obligations.ResetStateIsLegal :=
  ⟨⟨Codec.powerOn_ok, Codec.powerOn_ok, rfl, fun _ => rfl, rfl, rfl, rfl, rfl⟩,
    fun _ h => absurd h List.not_mem_nil, fun _ _ h => absurd h List.not_mem_nil⟩

/-- Settles O48, by the seven kinds of step: a sample concerns the Observer's codec alone, the others the Driver. -/
theorem stepKeepsTheStateLegal : Obligations.StepKeepsTheStateLegal := by
  intro s t hs hst
  rw [State.legal_iff] at hs ⊢
  obtain ⟨hd, ho⟩ := hs
  rcases step_cases s with ⟨b, rest, -, h⟩ | ⟨-, h⟩
  · obtain rfl := Host.Outcome.next.inj (h.symm.trans hst)
    exact ⟨(observerTap_drv _ _ _ s).symm ▸ hd, observerTap_codec_ok ho _ _ _⟩
  · rcases h with ⟨hop, p, -, h⟩ | ⟨hop, -, h⟩ | ⟨-, -, -, h⟩ | ⟨-, ha, b, -, h⟩ | ⟨-, ha, b, -, h⟩ |
      ⟨hop, ha, h⟩ <;> obtain rfl := Host.Outcome.next.inj (h.symm.trans hst)
    · exact ⟨driverTap_legal hd hop _ _, (driverTap_obs _ _ s).symm ▸ ho⟩
    · exact ⟨advance_legal hd hop, (advance_obs s).symm ▸ ho⟩
    · exact ⟨hd, ho⟩
    · obtain ⟨hq, hi⟩ := hd.quiet_of_waits (by simp [ha])
      exact ⟨headerEffect_hostRead_legal hq hi b, ((headerEffect_obs b _).trans (hostRead_obs s)).symm ▸ ho⟩
    · obtain ⟨hq, -⟩ := hd.quiet_of_waits (by simp [ha])
      exact ⟨acceptByte_hostRead_legal hq b, ((acceptByte_driver_obs b _).trans (hostRead_obs s)).symm ▸ ho⟩
    · exact ⟨adapterRun_legal hd hop ha, (adapterRun_obs s).symm ▸ ho⟩

end Sys2Proof.Machine

/-! ## One side does not see the other -/

namespace Sys2Proof.Machine

open Sys2Proof

/-- The side of role `r` in `s`, with the other side taken from `q`. An operation of role `r` that commutes with this
exchange neither reads nor writes the other side (20_memory.md R59). -/
def State.beside (s : State) (r : Role) (q : State) : State :=
  match r with
  | .driver => { s with obs := q.obs }
  | .observer => { s with drv := q.drv }

@[simp] theorem beside_driver_drv (s q : State) : (s.beside .driver q).drv = s.drv := rfl

@[simp] theorem beside_driver_obs (s q : State) : (s.beside .driver q).obs = q.obs := rfl

@[simp] theorem beside_observer_drv (s q : State) : (s.beside .observer q).drv = q.drv := rfl

@[simp] theorem beside_observer_obs (s q : State) : (s.beside .observer q).obs = s.obs := rfl

@[simp] theorem beside_self (s : State) (r : Role) : s.beside r s = s := by cases r <;> rfl

@[simp] theorem tapOf_beside (s q : State) (r : Role) : (s.beside r q).tapOf r = s.tapOf r := by cases r <;> rfl

@[simp] theorem codecOf_beside (s q : State) (r : Role) : (s.beside r q).codecOf r = s.codecOf r := by
  cases r <;> rfl

/-! ### Operations of both roles -/

theorem setCodec_beside (s q : State) (r : Role) (c : Codec) :
    (s.beside r q).setCodec r c = (s.setCodec r c).beside r q := by cases r <;> rfl

theorem emit_beside (s q : State) (r : Role) (es : List Event) :
    (s.beside r q).emit r es = (s.emit r es).beside r q := by cases r <;> rfl

theorem emitCodec_beside (s q : State) (r : Role) (es : List Event) :
    (s.beside r q).emitCodec r es = (s.emitCodec r es).beside r q := by cases r <;> rfl

theorem raise_beside (s q : State) (r : Role) (f : PdiFault) (u : Unit9) :
    raise r f u (s.beside r q) = (raise r f u s).beside r q := by cases r <;> rfl

theorem consumeReadByte_beside (s q : State) (r : Role) (b : Byte) :
    consumeReadByte r b (s.beside r q) = (consumeReadByte r b s).beside r q := by cases r <;> rfl

theorem writeSlot_beside (s q : State) (r : Role) (u : Unit9) :
    writeSlot r u (s.beside r q) = (writeSlot r u s).beside r q := by
  unfold writeSlot
  simp only [codecOf_beside, setCodec_beside, emitCodec_beside, raise_beside]
  split_ifs <;> rfl

theorem readSlot_beside (s q : State) (r : Role) (u : Unit9) :
    readSlot r u (s.beside r q) = (readSlot r u s).beside r q := by
  unfold readSlot
  simp only [codecOf_beside, setCodec_beside, emitCodec_beside, consumeReadByte_beside, raise_beside]
  split_ifs <;> rfl

theorem acceptByte_beside (s q : State) (r : Role) (b : Byte) :
    acceptByte r b (s.beside r q) = (acceptByte r b s).beside r q := by
  obtain ⟨byte, o, x, y, w, n, -, -, heq⟩ := acceptByte_cases b
  rw [heq, heq]
  cases r <;> rfl

/-! ### The TAP step -/

theorem stateAction_beside (s q : State) (r : Role) (p : TapState) (tdi tdo : Bool) :
    stateAction r p tdi tdo (s.beside r q) = (stateAction r p tdi tdo s).beside r q := by
  unfold stateAction
  split <;> cases r <;> rfl

theorem moveTap_beside (s q : State) (r : Role) (n : TapState) :
    moveTap r n (s.beside r q) = (moveTap r n s).beside r q := by cases r <;> rfl

theorem observeUnit_beside (s q : State) (u v : Unit9) :
    observeUnit u v (s.beside .observer q) = (observeUnit u v s).beside .observer q := by
  unfold observeUnit
  simp only [beside_observer_obs, acceptByte_beside, writeSlot_beside, readSlot_beside, raise_beside]
  split_ifs <;> rfl

theorem updateDR_observer_beside (s q : State) :
    updateDR .observer (s.beside .observer q) = (updateDR .observer s).beside .observer q := by
  unfold updateDR
  rw [tapOf_beside]
  split
  · rfl
  · exact observeUnit_beside (emitCaptured 0x7 s) q _ _
  · rfl
  · rfl

theorem updateDR_beside (s q : State) (r : Role) : updateDR r (s.beside r q) = (updateDR r s).beside r q := by
  cases r
  · rw [updateDR_driver, updateDR_driver]; rfl
  · exact updateDR_observer_beside s q

theorem entryAction_beside (s q : State) (r : Role) (n : TapState) :
    entryAction r n (s.beside r q) = (entryAction r n s).beside r q := by
  unfold entryAction
  split
  · cases r <;> rfl
  · cases r <;> rfl
  · exact updateDR_beside s q r
  · rfl

theorem tapStep_beside (s q : State) (r : Role) (p : TapState) (tms tdi tdo : Bool) :
    tapStep r p tms tdi tdo (s.beside r q) = (tapStep r p tms tdi tdo s).beside r q := by
  unfold tapStep
  rw [stateAction_beside, moveTap_beside, entryAction_beside, emit_beside]

theorem observerTap_beside (s q : State) (p : TapState) (tms : Bool) (b : BusSample) :
    observerTap p tms b (s.beside .observer q) = (observerTap p tms b s).beside .observer q := by
  unfold observerTap
  rw [tapStep_beside]
  rfl

/-! ### The Driver's other actions -/

theorem advance_beside (s q : State) : advance (s.beside .driver q) = (advance s).beside .driver q := by
  rcases Nat.lt_or_ge (s.drv.idx + 1) (opSeq s.drv.op).length with h | h
  · rw [advance_of_more h, advance_of_more (s := s.beside .driver q) h]; rfl
  · rw [advance_of_last h, advance_of_last (s := s.beside .driver q) h]; rfl

theorem driverTap_beside (s q : State) (p : TapState) (tms : Bool) :
    driverTap p tms (s.beside .driver q) = (driverTap p tms s).beside .driver q := by
  have htdi : drvTdi p (s.beside .driver q) = drvTdi p s := by cases p <;> rfl
  have htdo : (s.beside .driver q).nextTdo = s.nextTdo := rfl
  unfold driverTap
  rw [htdi, htdo, tapStep_beside]
  exact advance_beside (recordBus _ (tapStep .driver p tms _ _ s)) q

theorem hostRead_beside (s q : State) : (s.beside .driver q).hostRead = s.hostRead.beside .driver q := by
  unfold State.hostRead
  simp only [beside_driver_drv]
  split <;> rfl

theorem headerEffect_beside (s q : State) (b : Byte) :
    headerEffect b (s.beside .driver q) = (headerEffect b s).beside .driver q := by
  unfold headerEffect
  split_ifs <;> rfl

theorem loopTest_beside (s q : State) : loopTest (s.beside .driver q) = (loopTest s).beside .driver q := by
  by_cases h : s.drv.pdi.opcode = 0xF
  · rw [loopTest_of_idle h, loopTest_of_idle (s := s.beside .driver q) h]; rfl
  · rw [loopTest_of_running h, loopTest_of_running (s := s.beside .driver q) h]

theorem handOver_beside (s q : State) : handOver (s.beside .driver q) = (handOver s).beside .driver q := rfl

theorem finishWrite_beside (s q : State) : finishWrite (s.beside .driver q) = (finishWrite s).beside .driver q := by
  unfold finishWrite
  rw [handOver_beside, writeSlot_beside, loopTest_beside]
  rfl

theorem finishRead_beside (s q : State) : finishRead (s.beside .driver q) = (finishRead s).beside .driver q := by
  by_cases h : parityOk s.drv.pdiIn = true
  · rw [finishRead_of_good h, finishRead_of_good (s := s.beside .driver q) h, handOver_beside, readSlot_beside,
      loopTest_beside]
    rfl
  · rw [finishRead_of_bad h, finishRead_of_bad (s := s.beside .driver q) h, handOver_beside, raise_beside]
    rfl

theorem startWrite_beside (s q : State) : startWrite (s.beside .driver q) = (startWrite s).beside .driver q := by
  unfold startWrite
  rw [hostRead_beside, beside_driver_drv]
  split <;> rfl

theorem nextSlotAction_beside (s q : State) :
    nextSlotAction (s.beside .driver q) = (nextSlotAction s).beside .driver q := by
  unfold nextSlotAction
  rw [startWrite_beside, beside_driver_drv]
  split_ifs
  · rfl
  · cases s.drv.pdi.nextSlot <;> rfl

theorem adapterRun_beside (s q : State) : adapterRun (s.beside .driver q) = (adapterRun s).beside .driver q := by
  unfold adapterRun
  rw [finishWrite_beside, finishRead_beside, nextSlotAction_beside]
  simp only [beside_driver_drv]
  split <;> rfl

/-! ### The step -/

/-- A step of the Observer is the same beside any Driver. -/
theorem step_beside_of_sample {s t : State} (h : s.obs.samples ≠ []) (hst : step s = .next t) (q : State) :
    step (s.beside .observer q) = .next (t.beside .observer q) := by
  obtain ⟨b, rest, hb⟩ := List.exists_cons_of_ne_nil h
  obtain rfl := Host.Outcome.next.inj ((step_sample hb).symm.trans hst)
  rw [← observerTap_beside]
  exact step_sample (s := s.beside .observer q) hb

/-- A step of the Driver is the same beside any Observer that has no sample pending. -/
theorem step_beside_of_no_sample {s t q : State} (h : s.obs.samples = []) (hq : q.obs.samples = [])
    (hst : step s = .next t) : step (s.beside .driver q) = .next (t.beside .driver q) := by
  have hbuf : (s.beside .driver q).hostRead.drv.inBuf = s.hostRead.drv.inBuf := by rw [hostRead_beside]; rfl
  rcases step_cases s with ⟨b, rest, hb, -⟩ | ⟨-, hs⟩
  · exact absurd (h.symm.trans hb) nofun
  · rcases hs with ⟨ho, p, hp, hs⟩ | ⟨ho, hp, hs⟩ | ⟨ho, ha, hb, hs⟩ | ⟨ho, ha, b, hb, hs⟩ | ⟨ho, ha, b, hb, hs⟩ |
      ⟨ho, ha, hs⟩ <;> obtain rfl := Host.Outcome.next.inj (hs.symm.trans hst)
    · rw [← driverTap_beside]; exact step_pair (s := s.beside .driver q) hq ho hp
    · rw [← advance_beside]; exact step_exhausted (s := s.beside .driver q) hq ho hp
    · exact step_waits (s := s.beside .driver q) hq ho ha (hbuf.trans hb)
    · rw [← headerEffect_beside, ← hostRead_beside]
      exact step_header (s := s.beside .driver q) hq ho ha (hbuf.trans hb)
    · rw [← acceptByte_beside, ← hostRead_beside]
      exact step_opcode (s := s.beside .driver q) hq ho ha (hbuf.trans hb)
    · rw [← adapterRun_beside]; exact step_run (s := s.beside .driver q) hq ho ha

/-- A step of the Observer leaves the Driver alone. -/
theorem step_drv_of_sample {s t : State} (h : s.obs.samples ≠ []) (hst : step s = .next t) : t.drv = s.drv := by
  have hb := step_beside_of_sample h hst s
  rw [beside_self, hst] at hb
  exact (congrArg State.drv (Host.Outcome.next.inj hb) :)

/-- A step of the Driver leaves the Observer alone. -/
theorem step_obs_of_no_sample {s t : State} (h : s.obs.samples = []) (hst : step s = .next t) : t.obs = s.obs := by
  have hb := step_beside_of_no_sample h h hst
  rw [beside_self, hst] at hb
  exact (congrArg State.obs (Host.Outcome.next.inj hb) :)

/-- Settles O55: two states with the same Observer, or the same Driver, are one state beside two others. -/
theorem instancesAreIndependent : Obligations.InstancesAreIndependent := by
  refine ⟨fun s t hst => ⟨fun h => step_drv_of_sample h hst, fun h => step_obs_of_no_sample h hst⟩, ?_⟩
  intro s t s' t' hst hst'
  refine ⟨fun ho h => ?_, fun hd h h' => ?_⟩
  · have hs' : s.beside .observer s' = s' := by rw [State.beside, ho]
    have hb := step_beside_of_sample h hst s'
    rw [hs', hst'] at hb
    exact (congrArg State.obs (Host.Outcome.next.inj hb)).symm
  · have hs' : s.beside .driver s' = s' := by rw [State.beside, hd]
    have hb := step_beside_of_no_sample h h' hst
    rw [hs', hst'] at hb
    exact (congrArg State.drv (Host.Outcome.next.inj hb)).symm

end Sys2Proof.Machine

/-! ## The latched code -/

namespace Sys2Proof.Machine

open Sys2Proof

/-- What an adapter action leaves alone: the Driver's TAP core and registers and the streams of its bus
(42_tap_driver.md R156). -/
structure LinkUntouched (s t : State) : Prop where
  tap : t.drv.tap = s.drv.tap
  sr : t.drv.sr = s.drv.sr
  pdiIn : t.drv.pdiIn = s.drv.pdiIn
  idcode : t.drv.idcode = s.drv.idcode
  bus : t.drv.bus = s.drv.bus
  tdoIn : t.drv.tdoIn = s.drv.tdoIn
  events : t.drv.events = s.drv.events

theorem LinkUntouched.refl (s : State) : LinkUntouched s s := ⟨rfl, rfl, rfl, rfl, rfl, rfl, rfl⟩

theorem LinkUntouched.trans {s t u : State} (h : LinkUntouched s t) (k : LinkUntouched t u) : LinkUntouched s u :=
  ⟨k.tap.trans h.tap, k.sr.trans h.sr, k.pdiIn.trans h.pdiIn, k.idcode.trans h.idcode, k.bus.trans h.bus,
    k.tdoIn.trans h.tdoIn, k.events.trans h.events⟩

theorem hostRead_linkUntouched (s : State) : LinkUntouched s s.hostRead := by
  obtain ⟨o, l, h⟩ := hostRead_frame s
  rw [h]; exact ⟨rfl, rfl, rfl, rfl, rfl, rfl, rfl⟩

theorem headerEffect_linkUntouched (b : Byte) (s : State) : LinkUntouched s (headerEffect b s) := by
  unfold headerEffect
  split_ifs <;> exact ⟨rfl, rfl, rfl, rfl, rfl, rfl, rfl⟩

theorem acceptByte_driver_linkUntouched (b : Byte) (s : State) : LinkUntouched s (acceptByte .driver b s) := by
  obtain ⟨byte, o, x, y, w, n, -, -, heq⟩ := acceptByte_cases b
  rw [heq]; exact ⟨rfl, rfl, rfl, rfl, rfl, rfl, rfl⟩

theorem loopTest_linkUntouched (s : State) : LinkUntouched s (loopTest s) := by
  unfold loopTest
  split <;> exact ⟨rfl, rfl, rfl, rfl, rfl, rfl, rfl⟩

theorem writeSlot_driver_linkUntouched (u : Unit9) (s : State) : LinkUntouched s (writeSlot .driver u s) := by
  rw [writeSlot_driver]
  split <;> exact ⟨rfl, rfl, rfl, rfl, rfl, rfl, rfl⟩

theorem readSlot_driver_linkUntouched (u : Unit9) (s : State) : LinkUntouched s (readSlot .driver u s) := by
  rw [readSlot_driver]
  split <;> exact ⟨rfl, rfl, rfl, rfl, rfl, rfl, rfl⟩

theorem handOver_linkUntouched (s : State) : LinkUntouched s (handOver s) := ⟨rfl, rfl, rfl, rfl, rfl, rfl, rfl⟩

theorem startWrite_linkUntouched (s : State) : LinkUntouched s (startWrite s) := by
  unfold startWrite
  split
  · exact .refl s
  · exact (hostRead_linkUntouched s).trans ⟨rfl, rfl, rfl, rfl, rfl, rfl, rfl⟩

theorem nextSlotAction_linkUntouched (s : State) : LinkUntouched s (nextSlotAction s) := by
  unfold nextSlotAction
  split
  · exact ⟨rfl, rfl, rfl, rfl, rfl, rfl, rfl⟩
  · split
    · exact startWrite_linkUntouched s
    · exact ⟨rfl, rfl, rfl, rfl, rfl, rfl, rfl⟩
    · exact .refl s

theorem finishRead_linkUntouched (s : State) : LinkUntouched s (finishRead s) := by
  by_cases h : parityOk s.drv.pdiIn = true
  · rw [finishRead_of_good h]
    exact ((handOver_linkUntouched s).trans (readSlot_driver_linkUntouched _ _)).trans (loopTest_linkUntouched _)
  · rw [finishRead_of_bad h]; exact ⟨rfl, rfl, rfl, rfl, rfl, rfl, rfl⟩

theorem adapterRun_linkUntouched (s : State) : LinkUntouched s (adapterRun s) := by
  unfold adapterRun
  split
  · exact ⟨rfl, rfl, rfl, rfl, rfl, rfl, rfl⟩
  · exact ⟨rfl, rfl, rfl, rfl, rfl, rfl, rfl⟩
  · exact handOver_linkUntouched s
  · exact ((handOver_linkUntouched s).trans (writeSlot_driver_linkUntouched _ _)).trans (loopTest_linkUntouched _)
  · exact finishRead_linkUntouched s
  · exact nextSlotAction_linkUntouched s

/-- A step of a Driver with no operation running performs no bus step. -/
theorem step_linkUntouched {s t : State} (h : s.obs.samples = []) (ho : s.drv.op = .none) (hst : step s = .next t) :
    LinkUntouched s t := by
  rcases step_cases s with ⟨b, rest, hb, -⟩ | ⟨-, hs⟩
  · exact absurd (h.symm.trans hb) nofun
  · rcases hs with ⟨hop, -⟩ | ⟨hop, -⟩ | ⟨-, -, -, hs⟩ | ⟨-, -, b, -, hs⟩ | ⟨-, -, b, -, hs⟩ | ⟨-, -, hs⟩
    · exact absurd ho hop
    · exact absurd ho hop
    all_goals obtain rfl := Host.Outcome.next.inj (hs.symm.trans hst)
    · exact .refl s
    · exact (hostRead_linkUntouched s).trans (headerEffect_linkUntouched b _)
    · exact (hostRead_linkUntouched s).trans (acceptByte_driver_linkUntouched b _)
    · exact adapterRun_linkUntouched s

/-! ### The TAP step -/

theorem tapOf_emit (s : State) (r : Role) (es : List Event) : (s.emit r es).tapOf r = s.tapOf r := by cases r <;> rfl

/-- The action of a state leaves the latched code alone; only SHIFT-IR moves the pending bits. -/
theorem stateAction_ir (r : Role) (p : TapState) (tdi tdo : Bool) (s : State) :
    ((stateAction r p tdi tdo s).tapOf r).ir = (s.tapOf r).ir ∧
      (p ≠ .shiftIR → ((stateAction r p tdi tdo s).tapOf r).irNext = (s.tapOf r).irNext) := by
  unfold stateAction
  split
  · cases r <;> exact ⟨rfl, fun _ => rfl⟩
  · cases r <;> exact ⟨rfl, fun _ => rfl⟩
  · cases r <;> exact ⟨rfl, fun h => absurd rfl h⟩
  · exact ⟨rfl, fun _ => rfl⟩

/-- SHIFT-IR does not lead to UPDATE-IR, so the bits latched there are those pending before the step (R120). -/
theorem tapNext_updateIR {p : TapState} {tms : Bool} (h : tapNext p tms = .updateIR) : p ≠ .shiftIR := by
  rintro rfl; cases tms <;> cases h

/-- What a TAP step makes of the latched code (40_tap.md R117, R120). -/
theorem tapStep_ir (r : Role) (p : TapState) (tms tdi tdo : Bool) (s : State) :
    (tapNext p tms = .reset ∧ ((tapStep r p tms tdi tdo s).tapOf r).ir = 0x3) ∨
    (tapNext p tms = .updateIR ∧ ((tapStep r p tms tdi tdo s).tapOf r).ir = (s.tapOf r).irNext) ∨
    ((tapStep r p tms tdi tdo s).tapOf r).ir = (s.tapOf r).ir := by
  obtain ⟨hir, hnext⟩ := stateAction_ir r p tdi tdo s
  have hmove : ∀ (n : TapState) (u : State), (moveTap r n u).tapOf r = { u.tapOf r with state := n } :=
    fun n u => tapOf_setTap u r _
  unfold tapStep entryAction
  rw [tapOf_emit]
  split
  · next h => exact .inl ⟨h, by cases r <;> rfl⟩
  · next h => exact .inr (.inl ⟨h, by rw [updateIR, tapOf_setTap, hmove]; exact hnext (tapNext_updateIR h)⟩)
  · exact .inr (.inr (by rw [updateDR_tapOf, hmove]; exact hir))
  · exact .inr (.inr (by rw [hmove]; exact hir))

/-- A TAP step that changes the latched code ends in RESET with IDCODE or in UPDATE-IR with the pending bits. -/
theorem tapStep_latches {r : Role} {p : TapState} {tms tdi tdo : Bool} {s : State} {t : Tap}
    (ht : t = (tapStep r p tms tdi tdo s).tapOf r) (hne : t.ir ≠ (s.tapOf r).ir) :
    (t.state = .reset ∧ t.ir = 0x3) ∨ (t.state = .updateIR ∧ t.ir = (s.tapOf r).irNext) := by
  subst ht
  rw [tapStep_state]
  rcases tapStep_ir r p tms tdi tdo s with h | h | h
  · exact .inl h
  · exact .inr h
  · exact absurd h hne

theorem driverTap_tap (p : TapState) (tms : Bool) (s : State) :
    (driverTap p tms s).drv.tap = (tapStep .driver p tms (drvTdi p s) s.nextTdo s).tapOf .driver :=
  advance_tap _

/-- A Driver's TAP core is written by a TAP step only, that of its bus step. -/
theorem step_driver_tap {s t : State} (h : s.obs.samples = []) (hst : step s = .next t) :
    t.drv.tap = s.drv.tap ∨
      ∃ p tms, t.drv.tap = (tapStep .driver p tms (drvTdi p s) s.nextTdo s).tapOf .driver := by
  by_cases ho : s.drv.op = .none
  · exact .inl (step_linkUntouched h ho hst).tap
  · cases hp : s.currentPair with
    | none =>
      obtain rfl := Host.Outcome.next.inj ((step_exhausted h ho hp).symm.trans hst)
      exact .inl (advance_tap s)
    | some x =>
      obtain rfl := Host.Outcome.next.inj ((step_pair h ho hp).symm.trans hst)
      exact .inr ⟨_, _, driverTap_tap _ _ s⟩

/-- Settles O54: in either role only a TAP step writes the latched code. -/
theorem latchedCodeChangesOnlyOnEntry : Obligations.LatchedCodeChangesOnlyOnEntry := by
  intro s t hst
  cases hs : s.obs.samples with
  | cons b rest =>
    have hd : t.drv = s.drv := step_drv_of_sample (by simp [hs]) hst
    obtain rfl := Host.Outcome.next.inj ((step_sample hs).symm.trans hst)
    exact ⟨fun hne => absurd (congrArg (·.tap.ir) hd) hne, fun hne => tapStep_latches (r := .observer) rfl hne⟩
  | nil =>
    refine ⟨fun hne => ?_, fun hne => absurd (congrArg (·.tap.ir) (step_obs_of_no_sample hs hst)) hne⟩
    rcases step_driver_tap hs hst with htap | ⟨p, tms, htap⟩
    · exact absurd (congrArg Tap.ir htap) hne
    · exact tapStep_latches htap hne

end Sys2Proof.Machine

/-! # Proofs about streams and steps (20_memory.md)

O4: what a step runs. O53: host bytes and bus steps. O34 and O43: the byte orders. O36 and O37: whole scans, by the
registers a bus step works on. -/

/-! ## Which instruction a step runs -/

namespace Sys2Proof.Machine

open Sys2Proof Sys2Proof.Spec

theorem decodeHeader_rejected {b : Byte} (h0 : b ≠ 0x1E) (h1 : b ≠ 0x10) (h2 : b ≠ 0x11) (h3 : b ≠ 0x1F) :
    decodeHeader b = .rejected (.unassignedHeader b) := by
  rw [decodeHeader, if_neg h0, if_neg h1, if_neg h2, if_neg h3]

/-- With a byte on the host stream, an adapter at rest before a header fetches the instruction that byte is. -/
theorem fetchDriver_header {s : State} {b : Byte} {rest : List Byte} {i : Instr} (h : atRest s .awaitHeader)
    (hin : s.drv.hostIn = b :: rest) (hd : decodeHeader b = .instr i) :
    fetchDriver s = .instr i { s with drv := { s.drv with inBuf := some b, hostIn := rest } } := by
  obtain ⟨-, ho, ha, hb⟩ := h
  simp only [fetchDriver, ho, ha, fetchHeader, hostRead_of_cons hb hin, hd]

/-- A byte that is no header is taken and dropped (45_command_adapter.md R230). -/
theorem fetchDriver_unassigned {s : State} {b : Byte} {rest : List Byte} {r : DecodeReject}
    (h : atRest s .awaitHeader) (hin : s.drv.hostIn = b :: rest) (hd : decodeHeader b = .rejected r) :
    fetchDriver s = .act { s with drv := { s.drv with hostIn := rest } } := by
  obtain ⟨-, ho, ha, hb⟩ := h
  simp only [fetchDriver, ho, ha, fetchHeader, hostRead_of_cons hb hin, hd, skipHeader, consumeInto, ← hb]

/-- With a byte on the host stream, an adapter at rest before an opcode fetches what that byte decodes to. -/
theorem fetchDriver_opcode {s : State} {b : Byte} {rest : List Byte} (h : atRest s .awaitOpcode)
    (hin : s.drv.hostIn = b :: rest) :
    fetchDriver s = .instr (decodeOpcode b) { s with drv := { s.drv with inBuf := some b, hostIn := rest } } := by
  obtain ⟨-, ho, ha, hb⟩ := h
  simp only [fetchDriver, ho, ha, fetchOpcode, hostRead_of_cons hb hin]

/-- Settles O4: the fetch at each of the five positions. -/
theorem stepRunsTheDecodedInstruction : Obligations.StepRunsTheDecodedInstruction := by
  refine ⟨?sample, ?pair, ?header, ?unassigned, ?opcode⟩
  case sample =>
    rintro s b rest i hs rfl
    rw [step_sample hs, decode_packTapStep, exec_tapRow, tapInstr, hs]
  case pair =>
    rintro s p i hs ho hp rfl
    rw [step_pair hs ho hp, decode_packTapStep, exec_tapRow, tapInstr, hs]
  case header =>
    intro s b rest i h hin hd
    rw [step_driver h.1, fetchDriver_header h hin hd]
  case unassigned =>
    intro s b rest h hin h0 h1 h2 h3
    rw [step_driver h.1, fetchDriver_unassigned h hin (decodeHeader_rejected h0 h1 h2 h3)]
  case opcode =>
    rintro s b rest i h hin rfl
    rw [step_driver h.1, fetchDriver_opcode h hin]

end Sys2Proof.Machine

/-! ## The response of `IDCode` -/

namespace Sys2Proof.Machine

open Sys2Proof Sys2Proof.Spec

/-- Settles O34: `finishIdCode` writes bytes 3, 2, 1, 0 of the committed word. -/
theorem idCodeRespondsMostSignificantFirst : Obligations.IdCodeRespondsMostSignificantFirst := by
  rintro s ⟨hs, ho, ha, -⟩ ht
  have hrun : adapterRun s = finishIdCode s := by rw [adapterRun, ht]
  rw [step_run hs ho ha, hrun]
  rfl

end Sys2Proof.Machine

/-! ## Bus steps and host bytes -/

namespace Sys2Proof.Machine

open Sys2Proof

/-- What a bus step leaves alone: the host streams, the codec, the adapter, the unit being sent, and the Observer
(42_tap_driver.md R145, 45_command_adapter.md R221). -/
structure HostUntouched (s t : State) : Prop where
  obs : t.obs = s.obs
  hostIn : t.drv.hostIn = s.drv.hostIn
  hostOut : t.drv.hostOut = s.drv.hostOut
  pdi : t.drv.pdi = s.drv.pdi
  adState : t.drv.adState = s.drv.adState
  inBuf : t.drv.inBuf = s.drv.inBuf
  task : t.drv.task = s.drv.task
  faults : t.drv.faults = s.drv.faults
  pdiOut : t.drv.pdiOut = s.drv.pdiOut

theorem HostUntouched.trans {s t u : State} (h : HostUntouched s t) (k : HostUntouched t u) : HostUntouched s u :=
  ⟨k.obs.trans h.obs, k.hostIn.trans h.hostIn, k.hostOut.trans h.hostOut, k.pdi.trans h.pdi,
    k.adState.trans h.adState, k.inBuf.trans h.inBuf, k.task.trans h.task, k.faults.trans h.faults,
    k.pdiOut.trans h.pdiOut⟩

theorem advance_hostUntouched (s : State) : HostUntouched s (advance s) := by
  unfold advance
  split <;> exact ⟨rfl, rfl, rfl, rfl, rfl, rfl, rfl, rfl, rfl⟩

theorem driverTap_hostUntouched (p : TapState) (tms : Bool) (s : State) : HostUntouched s (driverTap p tms s) := by
  obtain ⟨t, sr, u, id, bus, td, ev, h⟩ := driverTap_frame p tms s
  rw [h]
  refine .trans ?_ (advance_hostUntouched _)
  exact ⟨rfl, rfl, rfl, rfl, rfl, rfl, rfl, rfl, rfl⟩

/-- A step of a Driver with an operation running takes nothing from the host and gives it nothing. -/
theorem step_hostUntouched {s t : State} (h : s.obs.samples = []) (ho : s.drv.op ≠ .none) (hst : step s = .next t) :
    HostUntouched s t := by
  cases hp : s.currentPair with
  | some p =>
    obtain rfl := Host.Outcome.next.inj ((step_pair h ho hp).symm.trans hst)
    exact driverTap_hostUntouched _ _ s
  | none =>
    obtain rfl := Host.Outcome.next.inj ((step_exhausted h ho hp).symm.trans hst)
    exact advance_hostUntouched s

/-- Settles O53: a running operation leaves the host's side alone, a resting Driver the bus's side. -/
theorem busStepsAndHostBytesDoNotMix : Obligations.BusStepsAndHostBytesDoNotMix := by
  intro s t h hst
  refine ⟨fun ho => ?running, fun ho => ?resting⟩
  case running =>
    have hu := step_hostUntouched h ho hst
    exact ⟨hu.hostIn, hu.hostOut, hu.pdi, hu.adState, hu.inBuf, hu.faults, hu.pdiOut⟩
  case resting =>
    have hu := step_linkUntouched h ho hst
    exact ⟨hu.tap, hu.sr, hu.pdiIn, hu.idcode, hu.bus, hu.tdoIn, hu.events⟩

end Sys2Proof.Machine

/-! ## The REPEAT operand -/

namespace Sys2Proof.Machine

open Sys2Proof Sys2Proof.Spec

theorem leValue_concat (bs : List Byte) (b : Byte) :
    leValue (bs ++ [b]) = leValue bs + 256 ^ bs.length * b.toNat := by
  induction bs with
  | nil => simp [leValue]
  | cons c cs ih =>
    rw [List.cons_append, leValue, leValue, ih, List.length_cons, pow_succ]
    ring

theorem leValue_lt (bs : List Byte) : leValue bs < 256 ^ bs.length := by
  induction bs with
  | nil => decide
  | cons b bs ih =>
    have hb := b.isLt
    rw [leValue, List.length_cons, pow_succ]
    omega

theorem leValue_lt_of_length {bs : List Byte} (h : bs.length ≤ 4) : leValue bs < 2 ^ 32 :=
  (leValue_lt bs).trans_le (Nat.pow_le_pow_right (show 256 > 0 by decide) h)

theorem beValue_concat (bs : List Byte) (b : Byte) : beValue (bs ++ [b]) = 256 * beValue bs + b.toNat := by
  simp [beValue]

theorem beValue_lt (bs : List Byte) : beValue bs < 256 ^ bs.length := by
  induction bs using List.reverseRecOn with
  | nil => decide
  | append_singleton bs b ih =>
    have hb := b.isLt
    rw [beValue_concat, List.length_append, List.length_singleton, pow_succ]
    omega

theorem beValue_lt_of_length {bs : List Byte} (h : bs.length ≤ 3) : beValue bs < 2 ^ 24 :=
  (beValue_lt bs).trans_le (Nat.pow_le_pow_right (show 256 > 0 by decide) h)

/-- Accumulating a byte shifts the word up and puts the byte below, as long as the word's top byte is free. -/
theorem accumulate_toNat {acc : Word32} (h : acc.toNat < 2 ^ 24) (b : Byte) :
    (accumulate acc b).toNat = 256 * acc.toNat + b.toNat := by
  have hb := b.isLt
  have hdisj : acc.toNat * 2 ^ 8 ||| b.toNat = acc.toNat * 2 ^ 8 + b.toNat := by
    rw [Nat.mul_comm]; exact (Nat.two_pow_add_eq_or_of_lt hb _).symm
  rw [accumulate, BitVec.toNat_or, BitVec.toNat_shiftLeft, BitVec.toNat_setWidth, Nat.shiftLeft_eq,
    Nat.mod_eq_of_lt (by omega), Nat.mod_eq_of_lt (by omega), hdisj]
  omega

theorem foldl_accumulate_toNat {bs : List Byte} (h : bs.length ≤ 4) :
    (bs.foldl accumulate 0).toNat = beValue bs := by
  induction bs using List.reverseRecOn with
  | nil => rfl
  | append_singleton bs b ih =>
    rw [List.length_append, List.length_singleton] at h
    have hv := ih (by omega)
    have hlt := beValue_lt_of_length (bs := bs) (by omega)
    rw [List.foldl_append, List.foldl_cons, List.foldl_nil, accumulate_toNat (hv ▸ hlt), hv, beValue_concat]

/-! ### The reversal -/

theorem byteAt_succ (v : Word32) (i : Nat) : byteAt v (i + 1) = byteAt (v >>> 8) i := by
  rw [byteAt, byteAt, ← BitVec.shiftRight_add, Nat.mul_succ, Nat.add_comm]

theorem foldl_add_eq (g : Nat → Word32) (l : List Nat) (a : Word32) :
    l.foldl (fun acc i => acc + g i) a = a + l.foldl (fun acc i => acc + g i) 0 := by
  induction l generalizing a with
  | nil => simp
  | cons i l ih => rw [List.foldl_cons, List.foldl_cons, ih, ih (0 + g i)]; ring

/-- Reversing one more byte puts the lowest byte on top of the reversal of the others. -/
theorem byterev_succ (n : Nat) (v : Word32) :
    byterev (n + 1) v = (byteAt v 0 <<< (8 * n)) + byterev n (v >>> 8) := by
  rw [byterev, byterev, List.range_succ_eq_map, List.foldl_cons, foldl_add_eq, List.foldl_map]
  simp only [byteAt_succ, zero_add, Nat.add_sub_cancel, Nat.sub_zero, Nat.succ_eq_add_one, Nat.sub_add_eq,
    Nat.sub_right_comm]

theorem byteAt_zero_toNat (v : Word32) : (byteAt v 0).toNat = v.toNat % 256 := by
  rw [byteAt, Nat.mul_zero, BitVec.ushiftRight_zero, BitVec.toNat_and]
  exact Nat.and_two_pow_sub_one_eq_mod v.toNat 8

theorem accumulate_ushiftRight {acc : Word32} (h : acc.toNat < 2 ^ 24) (b : Byte) :
    accumulate acc b >>> 8 = acc := by
  have hb := b.isLt
  apply BitVec.eq_of_toNat_eq
  rw [BitVec.toNat_ushiftRight, accumulate_toNat h, Nat.shiftRight_eq_div_pow]
  omega

/-- The last byte accumulated is the highest of the reversal, above the reversal of the bytes before it. -/
theorem byterev_accumulate_toNat {n : Nat} {acc : Word32} {b : Byte} (hacc : acc.toNat < 2 ^ 24)
    (hfit : 256 ^ n * b.toNat + (byterev n acc).toNat < 2 ^ 32) :
    (byterev (n + 1) (accumulate acc b)).toNat = 256 ^ n * b.toNat + (byterev n acc).toNat := by
  have hb := b.isLt
  have hlow : (byteAt (accumulate acc b) 0).toNat = b.toNat := by
    rw [byteAt_zero_toNat, accumulate_toNat hacc]; omega
  have hshift : b.toNat <<< (8 * n) = 256 ^ n * b.toNat := by
    rw [Nat.shiftLeft_eq, Nat.pow_mul, Nat.mul_comm]
  rw [byterev_succ, accumulate_ushiftRight hacc, BitVec.toNat_add, BitVec.toNat_shiftLeft, hlow, hshift,
    Nat.mod_eq_of_lt (a := 256 ^ n * b.toNat) (by omega), Nat.mod_eq_of_lt hfit]

theorem byterev_foldl_accumulate_toNat {bs : List Byte} (h : bs.length ≤ 4) :
    (byterev bs.length (bs.foldl accumulate 0)).toNat = leValue bs := by
  induction bs using List.reverseRecOn with
  | nil => rfl
  | append_singleton bs b ih =>
    rw [List.length_append, List.length_singleton] at h ⊢
    have hrev := ih (by omega)
    have hacc : (bs.foldl accumulate 0).toNat < 2 ^ 24 := by
      rw [foldl_accumulate_toNat (by omega)]
      exact beValue_lt_of_length (by omega)
    have hval : 256 ^ bs.length * b.toNat + leValue bs = leValue (bs ++ [b]) := by
      rw [leValue_concat, Nat.add_comm]
    have hlt := leValue_lt_of_length (bs := bs ++ [b]) (by rwa [List.length_append])
    rw [List.foldl_append, List.foldl_cons, List.foldl_nil,
      byterev_accumulate_toNat hacc (by rw [hrev, hval]; exact hlt), hrev, hval]

/-- Settles O43, by induction on the last byte: accumulating puts it lowest, the reversal highest. -/
theorem repeatOperandIsLeastSignificantFirst : Obligations.RepeatOperandIsLeastSignificantFirst :=
  fun _ _ h => ⟨foldl_accumulate_toNat h, byterev_foldl_accumulate_toNat h⟩

end Sys2Proof.Machine

/-! ## Runs of the machine -/

namespace Sys2Proof.Machine

open Sys2Proof Sys2Proof.Spec

theorem core_run_succ (M : Host.Core) {s t : M.State} (h : M.step s = .next t) (k : Nat) :
    M.run (k + 1) s = M.run k t := by
  rw [Host.Core.run, h]

theorem runs_succ {s t : State} (h : step s = .next t) (k : Nat) : runs (k + 1) s = runs k t :=
  core_run_succ core h k

theorem runs_add {k : Nat} {s t : State} (h : runs k s = .next t) (m : Nat) : runs (k + m) s = runs m t := by
  induction k generalizing s with
  | zero =>
    obtain rfl := Host.Outcome.next.inj h
    rw [Nat.zero_add]
  | succ k ih =>
    obtain ⟨u, hu⟩ := step_next s
    rw [runs_succ hu] at h
    rw [Nat.succ_add, runs_succ hu, ih h]

end Sys2Proof.Machine

/-! ## What a bus step works on -/

namespace Sys2Proof.Machine

open Sys2Proof Sys2Proof.Spec

/-- The registers of a Driver that a bus step reads or writes: its TAP core, its shift register, the unit it sends and
the two it commits. -/
structure Port where
  tap : Tap
  sr : Word32
  pdiOut : Unit9
  pdiIn : Unit9
  idcode : Word32

/-- The registers as a Driver holds them. -/
def Driver.port (d : Driver) : Port := ⟨d.tap, d.sr, d.pdiOut, d.pdiIn, d.idcode⟩

/-- Write the registers of the Driver. -/
def State.setPort (s : State) (q : Port) : State :=
  { s with drv := { s.drv with tap := q.tap, sr := q.sr, pdiOut := q.pdiOut, pdiIn := q.pdiIn, idcode := q.idcode } }

/-- What CAPTURE-DR loads (41_shift_register.md R132). -/
def Port.loaded (q : Port) : Word32 := if q.tap.ir = 0x7 then q.pdiOut.setWidth 32 else Config.idcodeFill

/-- The TDI bit of a bus step on the pair `x` (42_tap_driver.md R146). -/
def Port.tdi (q : Port) (x : Pair) : Bool :=
  match q.tap.state with
  | .shiftDR => q.sr.getLsbD 0
  | .shiftIR => x.tdi
  | _ => false

/-- The action of the state a step is taken in (40_tap.md R119, R122; 41_shift_register.md R133). -/
def Port.act (p : TapState) (tdi tdo : Bool) (q : Port) : Port :=
  match p with
  | .captureDR => { q with sr := q.loaded }
  | .shiftDR => { q with sr := shiftIn tdo q.sr }
  | .shiftIR => { q with tap := { q.tap with irNext := shiftInIr tdi q.tap.irNext } }
  | _ => q

/-- The move to a state and the action of its entry (40_tap.md R117, R120, R121). -/
def Port.enter (n : TapState) (q : Port) : Port :=
  match n with
  | .reset => { q with tap := { q.tap with state := .reset, ir := 0x3 } }
  | .updateIR => { q with tap := { q.tap with state := .updateIR, ir := q.tap.irNext } }
  | .updateDR => { q with
      tap := { q.tap with state := .updateDR }
      idcode := if q.tap.ir = 0x3 then q.sr else q.idcode
      pdiIn := if q.tap.ir = 0x7 then top9 q.sr else q.pdiIn }
  | n => { q with tap := { q.tap with state := n } }

/-- One bus step on a pair, with the target's answer (40_tap.md R100). -/
def Port.step (q : Port) (x : Pair) (tdo : Bool) : Port :=
  (q.act q.tap.state (q.tdi x) tdo).enter (tapNext q.tap.state x.tms)

theorem stateAction_driver (p : TapState) (tdi tdo : Bool) (s : State) :
    stateAction .driver p tdi tdo s = s.setPort (s.drv.port.act p tdi tdo) := by
  cases p <;> rfl

theorem entryAction_moveTap_driver (n : TapState) (s : State) :
    entryAction .driver n (moveTap .driver n s) = s.setPort (s.drv.port.enter n) := by
  cases n
  case updateDR => rw [entryAction, updateDR_driver]; rfl
  all_goals rfl

/-- A Driver's TAP step, with the TDI bit of the pair, is `Port.step` on its registers. -/
theorem tapStep_driver (x : Pair) (tdo : Bool) (s : State) :
    tapStep .driver s.drv.tap.state x.tms (s.drv.port.tdi x) tdo s =
      (s.setPort (s.drv.port.step x tdo)).emit .driver
        [.stateTransition s.drv.tap.state (tapNext s.drv.tap.state x.tms)] := by
  rw [tapStep, stateAction_driver, entryAction_moveTap_driver]
  rfl

/-- The pairs that the running operation has not driven yet. -/
def State.pairsLeft (s : State) : List Pair := (opSeq s.drv.op).drop s.drv.idx

theorem pairsLeft_length (s : State) : s.pairsLeft.length = (opSeq s.drv.op).length - s.drv.idx := List.length_drop

theorem currentPair_of_pairsLeft {s : State} {x : Pair} {xs : List Pair} (h : s.pairsLeft = x :: xs) :
    s.currentPair = some x := by
  rw [State.currentPair, ← List.head?_drop]
  exact congrArg List.head? h

theorem op_ne_none_of_pairsLeft {s : State} {x : Pair} {xs : List Pair} (h : s.pairsLeft = x :: xs) :
    s.drv.op ≠ .none := by
  intro ho
  rw [State.pairsLeft, ho, opSeq, List.drop_nil] at h
  cases h

theorem drvTdi_of_currentPair {s : State} {x : Pair} (h : s.currentPair = some x) :
    drvTdi s.drv.tap.state s = s.drv.port.tdi x := by
  simp only [drvTdi, Port.tdi, h]
  rfl

/-- The bus step of a Driver but for the sequencer: its registers, the bits recorded, the transition reported. -/
def busStepped (x : Pair) (tdo : Bool) (s : State) : State :=
  recordBus ⟨x.tms, s.drv.port.tdi x, tdo⟩ ((s.setPort (s.drv.port.step x tdo)).emit .driver
    [.stateTransition s.drv.tap.state (tapNext s.drv.tap.state x.tms)])

theorem step_busStepped {s : State} {x : Pair} {xs : List Pair} {b : Bool} {bs : List Bool}
    (hs : s.obs.samples = []) (hp : s.pairsLeft = x :: xs) (ht : s.drv.tdoIn = b :: bs) :
    step s = .next (advance (busStepped x b s)) := by
  have hc := currentPair_of_pairsLeft hp
  have hb : s.nextTdo = b := by rw [State.nextTdo, ht]
  rw [step_pair hs (op_ne_none_of_pairsLeft hp) hc, driverTap, drvTdi_of_currentPair hc, hb, tapStep_driver]
  rfl

theorem port_step_pdiOut (q : Port) (x : Pair) (tdo : Bool) : (q.step x tdo).pdiOut = q.pdiOut := by
  have hact : ∀ p tdi, (q.act p tdi tdo).pdiOut = q.pdiOut := fun p tdi => by cases p <;> rfl
  have henter : ∀ n (r : Port), (r.enter n).pdiOut = r.pdiOut := fun n r => by cases n <;> rfl
  rw [Port.step, henter, hact]

theorem busStepped_hostUntouched (x : Pair) (tdo : Bool) (s : State) : HostUntouched s (busStepped x tdo s) :=
  ⟨rfl, rfl, rfl, rfl, rfl, rfl, rfl, rfl, port_step_pdiOut _ _ _⟩

end Sys2Proof.Machine

/-! ## A whole operation -/

namespace Sys2Proof.Machine

open Sys2Proof Sys2Proof.Spec

/-- Some pairs driven with the target's answers: the registers after them and the bits sent on TDI. -/
def Port.run : List Pair → List Bool → Port → Port × List Bool
  | x :: xs, b :: bs, q => ((Port.run xs bs (q.step x b)).1, q.tdi x :: (Port.run xs bs (q.step x b)).2)
  | _, _, q => (q, [])

/-- Two runs one after the other. -/
theorem Port.run_append {xs ys : List Pair} {bs cs ls ms : List Bool} {q r u : Port} (hlen : bs.length = xs.length)
    (h : q.run xs bs = (r, ls)) (k : r.run ys cs = (u, ms)) : q.run (xs ++ ys) (bs ++ cs) = (u, ls ++ ms) := by
  induction xs generalizing q bs ls with
  | nil =>
    obtain rfl := List.length_eq_zero_iff.mp hlen
    obtain ⟨rfl, rfl⟩ := Prod.mk.inj h
    exact k
  | cons x xs ih =>
    obtain ⟨b, bs, rfl⟩ := List.exists_cons_of_length_eq_add_one hlen
    obtain ⟨rfl, rfl⟩ := Prod.mk.inj h
    have hrest := ih (Nat.succ.inj hlen) rfl
    rw [List.cons_append, List.cons_append, Port.run, hrest, List.cons_append]

/-- From `s` to `t` the pairs `xs` were driven on the bus: the registers have become `q`, `sent` is what went out on
TDI, `more` is left of the target's answers. -/
structure Drove (s t : State) (xs : List Pair) (q : Port) (sent more : List Bool) : Prop where
  host : HostUntouched s t
  port : t.drv.port = q
  tms : t.drv.bus.map BusSample.tms = s.drv.bus.map BusSample.tms ++ xs.map Pair.tms
  tdi : t.drv.bus.map BusSample.tdi = s.drv.bus.map BusSample.tdi ++ sent
  tdoIn : t.drv.tdoIn = more

theorem Drove.cons {s u t : State} {x : Pair} {xs : List Pair} {q r : Port} {l : Bool} {ls ms more : List Bool}
    (h : Drove s u [x] q [l] ms) (k : Drove u t xs r ls more) : Drove s t (x :: xs) r (l :: ls) more :=
  ⟨h.host.trans k.host, k.port, by rw [k.tms, h.tms, List.append_assoc]; rfl,
    by rw [k.tdi, h.tdi, List.append_assoc]; rfl, k.tdoIn⟩

theorem advance_port (s : State) : (advance s).drv.port = s.drv.port := by unfold advance; split <;> rfl

theorem advance_tdoIn (s : State) : (advance s).drv.tdoIn = s.drv.tdoIn := by unfold advance; split <;> rfl

theorem advance_busStepped_drove (x : Pair) (b : Bool) (s : State) :
    Drove s (advance (busStepped x b s)) [x] (s.drv.port.step x b) [s.drv.port.tdi x] s.drv.tdoIn.tail where
  host := (busStepped_hostUntouched x b s).trans (advance_hostUntouched _)
  port := by rw [advance_port]; rfl
  tms := by rw [advance_bus]; exact List.map_append
  tdi := by rw [advance_bus]; exact List.map_append
  tdoIn := by rw [advance_tdoIn]; rfl

/-- The rest of an operation's sequence takes one bus step for each pair and ends the operation. -/
theorem runs_pairsLeft {x : Pair} {xs : List Pair} {b : Bool} {bs more : List Bool} {s : State}
    (hs : s.obs.samples = []) (hp : s.pairsLeft = x :: xs) (hlen : bs.length = xs.length)
    (ht : s.drv.tdoIn = b :: bs ++ more) :
    ∃ t, runs (xs.length + 1) s = .next t ∧ t.drv.op = .none ∧ t.drv.complete = s.drv.op.scans ∧
      Drove s t (x :: xs) (s.drv.port.run (x :: xs) (b :: bs)).1 (s.drv.port.run (x :: xs) (b :: bs)).2 more := by
  induction xs generalizing x b bs s with
  | nil =>
    obtain rfl := List.length_eq_zero_iff.mp hlen
    have hlast : (opSeq s.drv.op).length ≤ s.drv.idx + 1 := by
      have hcount := pairsLeft_length s
      rw [hp, List.length_singleton] at hcount
      omega
    have hdrove := advance_busStepped_drove x b s
    rw [ht] at hdrove
    refine ⟨_, runs_succ (step_busStepped hs hp ht) 0, ?_, ?_, hdrove⟩
    all_goals rw [advance_of_last (s := busStepped x b s) hlast]
    rfl
  | cons y ys ih =>
    obtain ⟨c, cs, rfl⟩ := List.exists_cons_of_length_eq_add_one hlen
    have hmore : s.drv.idx + 1 < (opSeq s.drv.op).length := by
      have hcount := pairsLeft_length s
      rw [hp, List.length_cons, List.length_cons] at hcount
      omega
    have hadv := advance_of_more (s := busStepped x b s) hmore
    have hdrove := advance_busStepped_drove x b s
    have hleft : (advance (busStepped x b s)).pairsLeft = y :: ys := by
      rw [hadv]
      exact (List.tail_drop ..).symm.trans (congrArg List.tail hp)
    have hop : (advance (busStepped x b s)).drv.op = s.drv.op := by rw [hadv]; rfl
    rw [ht] at hdrove
    obtain ⟨t, hrun, hnone, hcomp, hrest⟩ := ih (hdrove.host.obs ▸ hs) hleft (Nat.succ.inj hlen) hdrove.tdoIn
    rw [hdrove.port] at hrest
    rw [hop] at hcomp
    exact ⟨t, (runs_succ (step_busStepped hs hp ht) _).trans hrun, hnone, hcomp, hdrove.cons hrest⟩

/-- The rest of an operation's sequence, with an answer of the target for each pair. -/
theorem runs_operation {bs more : List Bool} {s : State} (hs : s.obs.samples = [])
    (hmore : s.drv.idx < (opSeq s.drv.op).length) (hlen : bs.length = s.pairsLeft.length) (ht : s.drv.tdoIn = bs ++ more) :
    ∃ t, runs bs.length s = .next t ∧ t.drv.op = .none ∧ t.drv.complete = s.drv.op.scans ∧
      Drove s t s.pairsLeft (s.drv.port.run s.pairsLeft bs).1 (s.drv.port.run s.pairsLeft bs).2 more := by
  have hcount := pairsLeft_length s
  cases hp : s.pairsLeft with
  | nil => rw [hp, List.length_nil] at hcount; omega
  | cons x xs =>
    rw [hp] at hlen
    obtain ⟨b, bs, rfl⟩ := List.exists_cons_of_length_eq_add_one hlen
    rw [hlen]
    exact runs_pairsLeft hs hp (Nat.succ.inj hlen) ht

end Sys2Proof.Machine

/-! ## A scan -/

namespace Sys2Proof.Machine

open Sys2Proof Sys2Proof.Spec

theorem shiftIn_getLsbD (b : Bool) (r : Word32) (i : Nat) :
    (shiftIn b r).getLsbD i = if i < 31 then r.getLsbD (i + 1) else decide (i = 31) && b := by
  rw [shiftIn, BitVec.getLsbD_append, BitVec.getLsbD_extractLsb', BitVec.getLsbD_ofBool]
  by_cases h : i < 31
  · simp [h, Nat.add_comm]
  · have h31 : i - 31 = 0 ↔ i = 31 := by omega
    simp [h, h31]

/-- The bits shifted in stand at the top in the order received, first bit lowest (41_shift_register.md R134). -/
theorem shifted_getLsbD {bits : List Bool} (r : Word32) (h : bits.length ≤ 32) {k : Nat} (hk : k < bits.length) :
    (shifted bits r).getLsbD (32 - bits.length + k) = bits.getD k false := by
  induction bits using List.reverseRecOn with
  | nil => exact absurd hk (Nat.not_lt_zero k)
  | append_singleton bits b ih =>
    rw [List.length_append, List.length_singleton] at h hk ⊢
    have hlast : shifted (bits ++ [b]) r = shiftIn b (shifted bits r) := List.foldl_concat ..
    rw [hlast, shiftIn_getLsbD]
    rcases Nat.lt_succ_iff_lt_or_eq.mp hk with hlt | rfl
    · rw [if_pos (by omega), List.getD_append _ _ _ _ hlt, ← ih (by omega) hlt]
      congr 1
      omega
    · have htop : 32 - (bits.length + 1) + bits.length = 31 := by omega
      rw [htop, List.getD_append_right _ _ _ _ le_rfl]
      simp

/-- A word shifted in bit by bit from the lowest fills the register. -/
theorem shifted_word (w r : Word32) : shifted ((List.range 32).map fun k => w.getLsbD k) r = w := by
  apply BitVec.eq_of_getLsbD_eq
  intro i hi
  have h := shifted_getLsbD (bits := (List.range 32).map fun k => w.getLsbD k) r (k := i) (by simp)
    (by simpa using hi)
  simpa [hi] using h

theorem shiftInIr_code (code irNext : IrCode) :
    shiftInIr (code.getLsbD 3) (shiftInIr (code.getLsbD 2) (shiftInIr (code.getLsbD 1)
      (shiftInIr (code.getLsbD 0) irNext))) = code := by
  revert code irNext; decide

/-- What an instruction scan sends on TDI: the code, lowest bit first, with 0 around it. -/
def irSent (code : IrCode) : List Bool :=
  [false, false, false, false, code.getLsbD 0, code.getLsbD 1, code.getLsbD 2, code.getLsbD 3, false]

/-- The instruction scan from IDLE latches its code (42_tap_driver.md R148). -/
theorem Port.run_irScan {q : Port} (h : q.tap.state = .idle) (code : IrCode) {bs : List Bool} (hlen : bs.length = 9) :
    q.run (irScan code) bs = ({ q with tap := ⟨.updateIR, code, code⟩ }, irSent code) := by
  obtain ⟨⟨st, ir, irNext⟩, sr, pdiOut, pdiIn, idcode⟩ := q
  obtain rfl : st = .idle := h
  match bs, hlen with
  | [_, _, _, _, _, _, _, _, _], _ =>
    exact congrArg (fun c => ((⟨⟨.updateIR, c, c⟩, sr, pdiOut, pdiIn, idcode⟩ : Port), irSent code))
      (shiftInIr_code code irNext)

/-- From a state that a scan begins in to SHIFT-DR, with the register loaded on the way. -/
theorem Port.run_toShiftDR {q : Port} (h : q.tap.state = .idle ∨ q.tap.state = .updateIR) {bs : List Bool}
    (hlen : bs.length = 3) :
    q.run [⟨true, false⟩, ⟨false, false⟩, ⟨false, false⟩] bs =
      ({ q with tap := { q.tap with state := .shiftDR }, sr := q.loaded }, [false, false, false]) := by
  obtain ⟨⟨st, ir, irNext⟩, sr, pdiOut, pdiIn, idcode⟩ := q
  match bs, hlen with
  | [_, _, _], _ => obtain rfl | rfl : st = .idle ∨ st = .updateIR := h <;> rfl

/-- From EXIT1-DR through UPDATE-DR, where the register is committed, to IDLE. -/
theorem Port.run_toIdle {q : Port} (h : q.tap.state = .exit1DR) {bs : List Bool} (hlen : bs.length = 2) :
    q.run [⟨true, false⟩, ⟨false, false⟩] bs =
      ({ q with
          tap := { q.tap with state := .idle }
          idcode := if q.tap.ir = 0x3 then q.sr else q.idcode
          pdiIn := if q.tap.ir = 0x7 then top9 q.sr else q.pdiIn }, [false, false]) := by
  obtain ⟨⟨st, ir, irNext⟩, sr, pdiOut, pdiIn, idcode⟩ := q
  obtain rfl : st = .exit1DR := h
  match bs, hlen with
  | [_, _], _ => rfl

theorem Port.step_shiftDR {q : Port} (h : q.tap.state = .shiftDR) (x : Pair) (b : Bool) :
    q.step x b =
      { q with tap := { q.tap with state := if x.tms then .exit1DR else .shiftDR }, sr := shiftIn b q.sr } := by
  obtain ⟨⟨st, ir, irNext⟩, sr, pdiOut, pdiIn, idcode⟩ := q
  obtain ⟨tms, tdi⟩ := x
  obtain rfl : st = .shiftDR := h
  cases tms <;> rfl

theorem Port.tdi_shiftDR {q : Port} (h : q.tap.state = .shiftDR) (x : Pair) : q.tdi x = q.sr.getLsbD 0 := by
  rw [Port.tdi, h]

/-- The shift steps, the last of which leaves SHIFT-DR: the register goes out bit by bit as the answers come in. -/
theorem Port.run_shiftDR {q : Port} {n : Nat} {bits : List Bool} (h : q.tap.state = .shiftDR)
    (hlen : bits.length = n + 1) (hn : n < 32) :
    q.run (List.replicate n ⟨false, false⟩ ++ [⟨true, false⟩]) bits =
      ({ q with tap := { q.tap with state := .exit1DR }, sr := shifted bits q.sr },
        (List.range (n + 1)).map fun k => q.sr.getLsbD k) := by
  induction n generalizing q bits with
  | zero =>
    obtain ⟨b, rfl⟩ := List.length_eq_one_iff.mp hlen
    simp [Port.run, Port.step_shiftDR h, Port.tdi_shiftDR h, shifted]
  | succ n ih =>
    obtain ⟨b, bits, rfl⟩ := List.exists_cons_of_length_eq_add_one hlen
    have hstep := Port.step_shiftDR h ⟨false, false⟩ b
    have hrest := ih (q := q.step ⟨false, false⟩ b) (by rw [hstep]; rfl) (Nat.succ.inj hlen)
      (Nat.lt_of_succ_lt hn)
    have hsent : (List.range (n + 1)).map (fun k => (shiftIn b q.sr).getLsbD k) =
        (List.range (n + 1)).map (fun k => q.sr.getLsbD (k + 1)) := by
      refine List.map_congr_left fun k hk => ?_
      rw [shiftIn_getLsbD, if_pos (by have := List.mem_range.mp hk; omega)]
    rw [List.replicate_succ, List.cons_append, Port.run, hrest, hstep, Port.tdi_shiftDR h, hsent,
      List.range_succ_eq_map (n := n + 1), List.map_cons, List.map_map]
    rfl

/-- What a data scan makes of the registers of a Driver: the answers of its shift steps stand in the shift register,
which the latched code commits (40_tap.md R121). -/
def Port.scanned (bits : List Bool) (q : Port) : Port :=
  { q with
    tap := { q.tap with state := .idle }
    sr := shifted bits q.loaded
    idcode := if q.tap.ir = 0x3 then shifted bits q.loaded else q.idcode
    pdiIn := if q.tap.ir = 0x7 then top9 (shifted bits q.loaded) else q.pdiIn }

/-- What a data scan of a width sends on TDI: the register loaded, lowest bit first, with 0 around it. -/
def Port.drSent (w : Nat) (q : Port) : List Bool :=
  [false, false, false] ++ (List.range w).map (fun k => q.loaded.getLsbD k) ++ [false, false]

theorem drScan_succ (n : Nat) : drScan (n + 1) =
    [⟨true, false⟩, ⟨false, false⟩, ⟨false, false⟩] ++ (List.replicate n ⟨false, false⟩ ++ [⟨true, false⟩]) ++
      [⟨true, false⟩, ⟨false, false⟩] := by
  simp [drScan]

/-- The data scan (42_tap_driver.md R149). -/
theorem Port.run_drScan {q : Port} {w : Nat} {lead bits tail : List Bool}
    (h : q.tap.state = .idle ∨ q.tap.state = .updateIR) (hlead : lead.length = 3) (hbits : bits.length = w)
    (htail : tail.length = 2) (hpos : 0 < w) (hw : w ≤ 32) :
    q.run (drScan w) (lead ++ bits ++ tail) = (q.scanned bits, q.drSent w) := by
  obtain ⟨n, rfl⟩ := Nat.exists_eq_add_one_of_ne_zero hpos.ne'
  rw [drScan_succ]
  exact Port.run_append (by simp [hlead, hbits]; omega)
    (Port.run_append hlead (Port.run_toShiftDR h hlead) (Port.run_shiftDR rfl hbits hw)) (Port.run_toIdle rfl htail)

theorem width_pos (code : IrCode) : 0 < width code := by unfold width; split <;> decide

theorem width_le (code : IrCode) : width code ≤ 32 := by unfold width; split <;> decide

theorem opSeq_of_scans {op : DriverOp} (h : op.scans = true) :
    opSeq op = irScan op.code ++ drScan (width op.code) := by
  cases op
  case readId => rfl
  case pdiTransfer => rfl
  all_goals cases h

theorem opSeq_length_of_scans {op : DriverOp} (h : op.scans = true) : (opSeq op).length = 14 + width op.code := by
  cases op
  case readId => exact opSeq_length_readId
  case pdiTransfer => exact opSeq_length_pdiTransfer
  all_goals cases h

/-- The registers with a Driver's TAP core in IDLE under a code, `n` in the pending bits. -/
def Port.under (code n : IrCode) (q : Port) : Port := { q with tap := ⟨.idle, code, n⟩ }

/-- What an operation sends on TDI that began at index `i` of its sequence, its instruction scan skipped at 9. -/
def Port.scanSent (i : Nat) (q : Port) : List Bool :=
  (if i = 9 then [] else irSent q.tap.ir) ++ q.drSent (width q.tap.ir)

/-- The sequence of a scanning operation from IDLE, its instruction scan skipped or not (42_tap_driver.md R150). -/
theorem Port.run_opSeq {q : Port} {op : DriverOp} {i : Nat} {lead bits tail : List Bool} (hop : op.scans = true)
    (h : q.tap.state = .idle) (hi : (i = 9 ∧ q.tap.ir = op.code ∧ lead.length = 3) ∨ (i = 0 ∧ lead.length = 12))
    (hbits : bits.length = width op.code) (htail : tail.length = 2) :
    ∃ n, q.run ((opSeq op).drop i) (lead ++ bits ++ tail) =
      ((q.under op.code n).scanned bits, (q.under op.code n).scanSent i) := by
  rw [opSeq_of_scans hop]
  rcases hi with ⟨rfl, hir, hlead⟩ | ⟨rfl, hlead⟩
  · have hunder : q.under op.code q.tap.irNext = q := by rw [← hir, Port.under, ← h]
    refine ⟨q.tap.irNext, ?_⟩
    rw [hunder, Port.scanSent, if_pos rfl, hir, List.nil_append]
    exact Port.run_drScan (.inl h) hlead hbits htail (width_pos _) (width_le _)
  · have hsplit : lead ++ bits ++ tail = lead.take 9 ++ (lead.drop 9 ++ bits ++ tail) := by
      rw [← List.append_assoc, ← List.append_assoc, List.take_append_drop]
    refine ⟨op.code, ?_⟩
    rw [hsplit]
    exact Port.run_append (by simp [hlead, irScan]) (Port.run_irScan h op.code (by simp [hlead]))
      (Port.run_drScan (.inr rfl) (by simp [hlead]) hbits htail (width_pos _) (width_le _))

/-- A scanning operation from IDLE, from its first pair to its end. -/
theorem runs_scan {s : State} {lead bits tail more : List Bool} (hs : s.obs.samples = [])
    (hop : s.drv.op.scans = true) (h : s.drv.tap.state = .idle)
    (hi : (s.drv.idx = 9 ∧ s.drv.tap.ir = s.drv.op.code ∧ lead.length = 3) ∨ (s.drv.idx = 0 ∧ lead.length = 12))
    (hbits : bits.length = width s.drv.op.code) (htail : tail.length = 2)
    (hin : s.drv.tdoIn = lead ++ bits ++ tail ++ more) :
    ∃ t n, runs (lead.length + bits.length + 2) s = .next t ∧ t.drv.op = .none ∧ t.drv.complete = true ∧
      Drove s t s.pairsLeft ((s.drv.port.under s.drv.op.code n).scanned bits)
        ((s.drv.port.under s.drv.op.code n).scanSent s.drv.idx) more := by
  obtain ⟨n, hrun⟩ := Port.run_opSeq (q := s.drv.port) hop h hi hbits htail
  have hlen : (lead ++ bits ++ tail).length = lead.length + bits.length + 2 := by
    rw [List.length_append, List.length_append, htail]
  have hseq := opSeq_length_of_scans hop
  have hleft := pairsLeft_length s
  obtain ⟨t, hk, hnone, hcomp, hdrove⟩ := runs_operation hs (by omega) (by omega) hin
  rw [State.pairsLeft, hrun] at hdrove
  exact ⟨t, n, hlen ▸ hk, hnone, hcomp.trans hop, hdrove⟩

theorem top9_getLsbD (r : Word32) {k : Nat} (hk : k < 9) : (top9 r).getLsbD k = r.getLsbD (23 + k) := by
  rw [top9, BitVec.getLsbD_extractLsb', decide_eq_true hk, Bool.true_and]

/-- Settles O36: PDICOM commits the top nine bits, which are the nine answers of the shift steps. -/
theorem pdiTransferExchangesOneUnit : Obligations.PdiTransferExchangesOneUnit := by
  intro s lead bits tail more hs hop hst hi hbits htail hin
  obtain ⟨t, n, hrun, hnone, hcomp, hdrove⟩ := runs_scan hs (by rw [hop]; rfl) hst (by rw [hop]; exact hi)
    (by rw [hop]; exact hbits) htail hin
  rw [hop] at hdrove
  rw [hbits] at hrun
  have hport := hdrove.port
  have hunit : t.drv.pdiIn = top9 (shifted bits (s.drv.port.under 0x7 n).loaded) := congrArg Port.pdiIn hport
  have hsr : (s.drv.port.under 0x7 n).loaded = s.drv.pdiOut.setWidth 32 := rfl
  refine ⟨t, hrun, hnone, hcomp, ?state, ?ir, hdrove.tdoIn, ?unit, ?tms, ?tdi, hdrove.host.pdi, hdrove.host.hostOut,
    ?idcode, hdrove.host.obs⟩
  case state => exact congrArg (·.tap.state) hport
  case ir => exact congrArg (·.tap.ir) hport
  case idcode => exact congrArg Port.idcode hport
  case unit =>
    intro k hk
    have hbit := shifted_getLsbD (bits := bits) (s.drv.port.under 0x7 n).loaded (by omega) (k := k) (by omega)
    rw [hunit, top9_getLsbD _ hk, ← hbit, hbits]
  case tms => rw [hdrove.tms, State.pairsLeft, hop]
  case tdi =>
    have hloaded : (List.range 9).map (fun k => (s.drv.port.under 0x7 n).loaded.getLsbD k) =
        (List.range 9).map (fun k => s.drv.pdiOut.getLsbD k) := by
      refine List.map_congr_left fun k hk => ?_
      have hk9 := List.mem_range.mp hk
      rw [hsr, BitVec.getLsbD_setWidth, decide_eq_true (by omega), Bool.true_and]
    have hsent : (s.drv.port.under 0x7 n).drSent 9 =
        [false, false, false] ++ (List.range 9).map (fun k => s.drv.pdiOut.getLsbD k) ++ [false, false] := by
      rw [Port.drSent, hloaded]
    rw [hdrove.tdi]
    change _ ++ ((if s.drv.idx = 9 then [] else irSent 0x7) ++ (s.drv.port.under 0x7 n).drSent 9) = _
    rw [hsent]
    simp only [List.append_assoc]
    rfl

/-- A Driver that has taken the header of `IDCode` (45_command_adapter.md R223). -/
def idCodeBegun (rest : List Byte) (s : State) : State :=
  { s with drv := { s.drv with
      adState := .run, inBuf := none, hostIn := rest, op := .readId, idx := startIdx 0x3 s, task := .finishIdCode } }

theorem step_idCodeHeader {s : State} {rest : List Byte} (h : atRest s .awaitHeader)
    (hin : s.drv.hostIn = 0x10 :: rest) : step s = .next (idCodeBegun rest s) := by
  obtain ⟨hs, ho, ha, hb⟩ := h
  have hread := hostRead_of_cons hb hin
  rw [step_header hs ho ha (congrArg (·.drv.inBuf) hread), hread]
  rfl

/-- Settles O37: IDCODE commits the whole register, which the 32 answers of the shift steps have filled. -/
theorem idCodeCommandReturnsTheCapturedWord : Obligations.IdCodeCommandReturnsTheCapturedWord := by
  intro s lead tail more w rest hrest hhost hst hi htail hin
  have hi' : ((idCodeBegun rest s).drv.idx = 9 ∧ s.drv.tap.ir = 0x3 ∧ lead.length = 3) ∨
      ((idCodeBegun rest s).drv.idx = 0 ∧ lead.length = 12) := by
    rcases hi with ⟨hir, hlead⟩ | ⟨hir, hlead⟩
    · exact .inl ⟨if_pos hir, hir, hlead⟩
    · exact .inr ⟨if_neg hir, hlead⟩
  obtain ⟨t, n, hrun, hnone, -, hdrove⟩ := runs_scan (s := idCodeBegun rest s)
    (bits := (List.range 32).map fun k => w.getLsbD k) hrest.1 rfl hst hi'
    (List.length_map .. |>.trans List.length_range) htail hin
  rw [List.length_map, List.length_range] at hrun
  have hhostSide := hdrove.host
  have hport := hdrove.port
  have hword : t.drv.idcode = w :=
    (congrArg Port.idcode hport).trans (shifted_word w (s.drv.port.under 0x3 n).loaded)
  have hsteps : t.drv.bus.length = s.drv.bus.length + lead.length + 34 := by
    have htms := congrArg List.length hdrove.tms
    have hleft : (idCodeBegun rest s).pairsLeft.length = 46 - (idCodeBegun rest s).drv.idx := pairsLeft_length _
    rw [List.length_append, List.length_map, List.length_map, List.length_map, hleft] at htms
    change _ = s.drv.bus.length + _ at htms
    omega
  have hfinish := idCodeRespondsMostSignificantFirst t
    ⟨hhostSide.obs ▸ hrest.1, hnone, hhostSide.adState, hhostSide.inBuf⟩ hhostSide.task
  have hrun37 : runs (lead.length + 36) s = runs 1 t :=
    (runs_succ (step_idCodeHeader hrest hhost) _).trans (runs_add hrun 1)
  refine ⟨_, hrun37.trans (runs_succ hfinish 0), hword, rfl, hhostSide.hostIn, ?response, hsteps, hdrove.tdoIn,
    congrArg (·.tap.state) hport, congrArg (·.tap.ir) hport, hhostSide.pdi, hhostSide.faults, hhostSide.obs⟩
  case response =>
    change t.drv.hostOut ++ _ = _
    rw [hword, hhostSide.hostOut]
    rfl

end Sys2Proof.Machine

/-! # Proofs about the encoding (30_encoding.md)

O1 and O2: the decoder and the encoder undo each other, for an opcode byte by way of its three fields. O3 and O5:
written words and packed TAP steps. O23 and O24: LDCS, STCS, REPEAT and KEY in a Driver. O59: the device-ID word.
O60: the Mnemonic Encoder. -/

/-! ## The fields of an opcode byte -/

namespace Sys2Proof.Machine

open Sys2Proof

theorem opField_eq (b : Byte) : opField b = b.toNat / 32 := by
  have hb := b.isLt
  rw [opField, BitVec.extractLsb'_toNat, Nat.shiftRight_eq_div_pow]
  omega

theorem spareOf_eq (b : Byte) : spareOf b = decide (b.toNat / 16 % 2 = 1) := by
  rw [spareOf, ← BitVec.testBit_toNat, Nat.testBit_eq_decide_div_mod_eq]

theorem csAddrOf_eq (b : Byte) : csAddrOf b = b.toNat % 16 := BitVec.extractLsb'_toNat 0 4 b

theorem opField_lt (b : Byte) : opField b < 8 := (b.extractLsb' 5 3).isLt

theorem csAddrOf_lt (b : Byte) : csAddrOf b < 16 := (b.extractLsb' 0 4).isLt

/-- The two size fields lie in the low four bits, so they are the sizes computed from those (30_encoding.md R69,
R71). -/
theorem sizeAOf_eq (b : Byte) : sizeAOf b = sizeAOfLow (csAddrOf b) := by
  rw [sizeAOf, sizeAOfLow, csAddrOf_eq, BitVec.extractLsb'_toNat, Nat.shiftRight_eq_div_pow]
  omega

theorem sizeBOf_eq (b : Byte) : sizeBOf b = sizeBOfLow (csAddrOf b) := by
  rw [sizeBOf, sizeBOfLow, csAddrOf_eq, BitVec.extractLsb'_toNat, Nat.shiftRight_zero]
  omega

theorem opcodeByte_toNat {k : Nat} (hk : k < 8) (x : Bool) {low : Nat} (h : low < 16) :
    (opcodeByte k x low).toNat = 32 * k + (if x then 16 else 0) + low := by
  rw [opcodeByte, BitVec.toNat_ofNat, Nat.mod_eq_of_lt]
  split <;> omega

/-- An opcode byte has the fields it was put together from. -/
theorem opcodeByte_fields {k : Nat} (hk : k < 8) (x : Bool) {low : Nat} (h : low < 16) :
    opField (opcodeByte k x low) = k ∧ spareOf (opcodeByte k x low) = x ∧ csAddrOf (opcodeByte k x low) = low := by
  rw [opField_eq, spareOf_eq, csAddrOf_eq, opcodeByte_toNat hk x h]
  refine ⟨by split <;> omega, ?_, by split <;> omega⟩
  cases x
  · exact decide_eq_false (by rw [if_neg Bool.false_ne_true]; omega)
  · exact decide_eq_true (by rw [if_pos rfl]; omega)

/-- The three fields are the whole byte: no bit of it is outside them. -/
theorem opcodeByte_of_fields (b : Byte) : opcodeByte (opField b) (spareOf b) (csAddrOf b) = b := by
  apply BitVec.eq_of_toNat_eq
  rw [opcodeByte_toNat (opField_lt b) _ (csAddrOf_lt b), opField_eq, spareOf_eq, csAddrOf_eq]
  simp only [decide_eq_true_eq]
  split <;> omega

/-! ## The instruction of the three fields -/

/-- The instruction an opcode, bit 4 and the low four bits stand for (30_encoding.md R69 to R73). -/
def opcodeInstr (k : Nat) (x : Bool) (low : Nat) : Instr :=
  match k with
  | 0 => .lds x (sizeAOfLow low) (sizeBOfLow low)
  | 1 => .ld x (sizeAOfLow low) (sizeBOfLow low)
  | 2 => .sts x (sizeAOfLow low) (sizeBOfLow low)
  | 3 => .st x (sizeAOfLow low) (sizeBOfLow low)
  | 4 => .ldcs x low
  | 5 => .rept x (sizeAOfLow low - 1) (sizeBOfLow low)
  | 6 => .stcs x low
  | _ => .key x low

theorem decodeOpcode_eq (b : Byte) : decodeOpcode b = opcodeInstr (opField b) (spareOf b) (csAddrOf b) := by
  rw [decodeOpcode, sizeAOf_eq, sizeBOf_eq]
  rfl

theorem decodeOpcode_opcodeByte {k : Nat} (hk : k < 8) (x : Bool) {low : Nat} (h : low < 16) :
    decodeOpcode (opcodeByte k x low) = opcodeInstr k x low := by
  obtain ⟨hop, hspare, hlow⟩ := opcodeByte_fields hk x h
  rw [decodeOpcode_eq, hop, hspare, hlow]

/-- The two size fields of the low four bits are all of them. -/
theorem low_of_sizes {low : Nat} (h : low < 16) : 4 * (sizeAOfLow low - 1) + (sizeBOfLow low - 1) = low := by
  rw [sizeAOfLow, sizeBOfLow]; omega

theorem encode_opcodeInstr {k : Nat} (hk : k < 8) (x : Bool) {low : Nat} (h : low < 16) :
    encode (opcodeInstr k x low) = ⟨.pdiOpcode, opcodeByte k x low⟩ := by
  have hlow := low_of_sizes h
  interval_cases k <;> simp only [opcodeInstr, encode, hlow]

theorem opcodeInstr_wf (k : Nat) (x : Bool) {low : Nat} (h : low < 16) : (opcodeInstr k x low).wf = true := by
  have hA := sizeOk_sizeAOfLow low
  have hB := sizeOk_sizeBOfLow low
  have hlow : low ≤ 15 := by omega
  have hunused : sizeAOfLow low - 1 ≤ 3 := by rw [sizeAOfLow]; omega
  unfold opcodeInstr
  split <;> simp [Instr.wf, csAddrOk, hA, hB, hlow, hunused]

/-- Two sizes are packed into four bits and read back from them. -/
theorem exists_low_of_sizes {a b : Nat} (h : (sizeOk a && sizeOk b) = true) :
    ∃ low < 16, sizeAOfLow low = a ∧ sizeBOfLow low = b := by
  obtain ⟨ha, hb⟩ := Bool.and_eq_true_iff.mp h
  rw [sizeOk_iff] at ha hb
  refine ⟨4 * (a - 1) + (b - 1), Laws.MatchesRow.sizes_low h, ?_, ?_⟩
  · rw [sizeAOfLow]; omega
  · rw [sizeBOfLow]; omega

/-- Every well-formed instruction of the opcode format is the instruction of some fields. -/
theorem exists_opcodeInstr {i : Instr} (h : i.wf = true) (hf : (encode i).fmt = .pdiOpcode) :
    ∃ (k : Nat) (x : Bool) (low : Nat), k < 8 ∧ low < 16 ∧ i = opcodeInstr k x low := by
  cases i
  case lds x a b => obtain ⟨low, hl, rfl, rfl⟩ := exists_low_of_sizes h; exact ⟨0, x, low, by decide, hl, rfl⟩
  case ld x a b => obtain ⟨low, hl, rfl, rfl⟩ := exists_low_of_sizes h; exact ⟨1, x, low, by decide, hl, rfl⟩
  case sts x a b => obtain ⟨low, hl, rfl, rfl⟩ := exists_low_of_sizes h; exact ⟨2, x, low, by decide, hl, rfl⟩
  case st x a b => obtain ⟨low, hl, rfl, rfl⟩ := exists_low_of_sizes h; exact ⟨3, x, low, by decide, hl, rfl⟩
  case ldcs x c => exact ⟨4, x, c, by decide, Nat.lt_succ_of_le (of_decide_eq_true h), rfl⟩
  case rept x u b =>
    obtain ⟨hu, hb⟩ := Bool.and_eq_true_iff.mp h
    have hu1 : sizeOk (u + 1) = true := decide_eq_true (by have := of_decide_eq_true hu; omega)
    obtain ⟨low, hl, hA, rfl⟩ := exists_low_of_sizes (Bool.and_eq_true_iff.mpr ⟨hu1, hb⟩)
    exact ⟨5, x, low, by decide, hl, by rw [opcodeInstr, hA]; rfl⟩
  case stcs x c => exact ⟨6, x, c, by decide, Nat.lt_succ_of_le (of_decide_eq_true h), rfl⟩
  case key x u => exact ⟨7, x, u, by decide, Nat.lt_succ_of_le (of_decide_eq_true h), rfl⟩
  all_goals cases hf

/-- The byte of a well-formed opcode instruction decodes to that instruction. -/
theorem decodeOpcode_byteOf {i : Instr} (h : i.wf = true) (hf : (encode i).fmt = .pdiOpcode) :
    decodeOpcode (byteOf i) = i := by
  obtain ⟨k, x, low, hk, hl, rfl⟩ := exists_opcodeInstr h hf
  rw [byteOf, encode_opcodeInstr hk x hl, decodeOpcode_opcodeByte hk x hl]

theorem decode_encode_of_opcode {i : Instr} (h : i.wf = true) (hf : (encode i).fmt = .pdiOpcode) :
    decode (encode i) = .instr i := by
  have hd := decodeOpcode_byteOf h hf
  rw [decode.eq_def, hf]
  exact congrArg Decoded.instr hd

/-- Settles O1: an opcode byte is decoded by its fields; every other instruction has one word. -/
theorem decodeOfEncodeIsIdentity : Obligations.DecodeOfEncodeIsIdentity := by
  intro i h
  cases i
  case lds | ld | sts | st | ldcs | rept | stcs | key => exact decode_encode_of_opcode h rfl
  all_goals rfl

/-! ## The word of a decoded instruction -/

theorem encode_of_decodeHeader {b : Byte} {i : Instr} (h : decodeHeader b = .instr i) :
    i.wf = true ∧ encode i = ⟨.hostHeader, b⟩ := by
  rcases decodeHeader_cases b with ⟨rfl, hd⟩ | ⟨rfl, hd⟩ | ⟨rfl, hd⟩ | ⟨rfl, hd⟩ | hd
  all_goals cases hd.symm.trans h
  all_goals exact ⟨rfl, rfl⟩

theorem encode_decodeOpcode (b : Byte) :
    (decodeOpcode b).wf = true ∧ encode (decodeOpcode b) = ⟨.pdiOpcode, b⟩ := by
  rw [decodeOpcode_eq]
  refine ⟨opcodeInstr_wf _ _ (csAddrOf_lt b), ?_⟩
  rw [encode_opcodeInstr (opField_lt b) _ (csAddrOf_lt b), opcodeByte_of_fields]

theorem encode_of_decodeIr {c : IrCode} {i : Instr} (h : decodeIr c = .instr i) :
    i.wf = true ∧ encode i = ⟨.jtagIr, c.setWidth 8⟩ := by
  unfold decodeIr at h
  split_ifs at h with h3 h7 hF
  · cases h; exact ⟨rfl, by rw [h3]; rfl⟩
  · cases h; exact ⟨rfl, by rw [h7]; rfl⟩
  · cases h; exact ⟨rfl, by rw [hF]; rfl⟩

theorem encode_tapRow (p : TapState) (tms : Bool) :
    (tapRow p tms).wf = true ∧ encode (tapRow p tms) = ⟨.tapStep, (packTapStep p tms).setWidth 8⟩ := by
  cases p <;> cases tms <;> exact ⟨rfl, rfl⟩

theorem number_ofNumber {n : Nat} (h : n < 16) : (TapState.ofNumber n).number = n := by
  interval_cases n <;> rfl

/-- A TAP step word is the packed pair of the state and the bit it is read as. -/
theorem packTapStep_of_word (w : BitVec 5) :
    packTapStep (TapState.ofNumber (w.extractLsb' 1 4).toNat) (w.getLsbD 0) = w := by
  have hw := w.isLt
  apply BitVec.eq_of_toNat_eq
  rw [packTapStep, number_ofNumber (w.extractLsb' 1 4).isLt, BitVec.toNat_ofNat, BitVec.extractLsb'_toNat,
    Nat.shiftRight_eq_div_pow, ← BitVec.testBit_toNat, Nat.testBit_eq_decide_div_mod_eq]
  simp only [decide_eq_true_eq]
  split <;> omega

theorem encode_decodeTapStep (w : BitVec 5) :
    (decodeTapStep w).wf = true ∧ encode (decodeTapStep w) = ⟨.tapStep, w.setWidth 8⟩ := by
  have h := encode_tapRow (TapState.ofNumber (w.extractLsb' 1 4).toNat) (w.getLsbD 0)
  rwa [packTapStep_of_word] at h

/-- A byte without bits above a format's width is its low bits. -/
theorem setWidth_setWidth_of_lt {n : Nat} {w : Byte} (h : w.toNat < 2 ^ n) : (w.setWidth n).setWidth 8 = w := by
  apply BitVec.eq_of_toNat_eq
  rw [BitVec.toNat_setWidth, BitVec.toNat_setWidth, Nat.mod_eq_of_lt h, Nat.mod_eq_of_lt w.isLt]

/-- Settles O2, format by format. -/
theorem encodeOfDecodeIsIdentity : Obligations.EncodeOfDecodeIsIdentity := by
  intro f w i h
  cases f with
  | hostHeader => exact encode_of_decodeHeader h
  | pdiOpcode =>
    cases h
    exact encode_decodeOpcode w
  | jtagIr =>
    simp only [decode] at h
    split_ifs at h with hw
    have hi := encode_of_decodeIr h
    rwa [setWidth_setWidth_of_lt hw] at hi
  | tapStep =>
    simp only [decode] at h
    split_ifs at h with hw
    cases h
    have hi := encode_decodeTapStep (w.setWidth 5)
    rwa [setWidth_setWidth_of_lt hw] at hi

end Sys2Proof.Machine

/-! ## Written words and packed TAP steps -/

namespace Sys2Proof.Machine

open Sys2Proof Sys2Proof.Spec

/-- Settles O3: ten closed words. -/
theorem writtenOutWordsDecode : Obligations.WrittenOutWordsDecode :=
  ⟨rfl, rfl, rfl, rfl, rfl, rfl, rfl, rfl, rfl, rfl⟩

/-- The transcribed table and the model's row and transition functions agree on every row. -/
theorem tapRows_eq : ∀ r ∈ tapRows, tapRow r.2.1 r.2.2.1 = r.1 ∧ tapNext r.2.1 r.2.2.1 = r.2.2.2 := by decide

/-- Settles O5: unpacking a packed pair, then the table's own row. -/
theorem packedTapWordIsItsRow : Obligations.PackedTapWordIsItsRow := by
  intro i p n t h
  rw [decode_packTapStep]
  exact tapRows_eq _ h

end Sys2Proof.Machine

/-! ## Opcodes in a Driver -/

namespace Sys2Proof.Machine

open Sys2Proof Sys2Proof.Spec

/-- Accepting in a Driver is `Accept` in its codec and the byte on its way as the first unit (44_pdi_codec.md R183;
45_command_adapter.md R225). -/
theorem acceptOpcode_driver (b : Byte) (o : BitVec 4) (x y w n : Nat) (s : State) :
    acceptOpcode .driver b o x y w n s = opcodeSent s b (accepted s.drv.pdi o x y w n) := rfl

theorem sizeAOfLow_of_le {low : Nat} (h : low ≤ 15) : sizeAOfLow low = low / 4 + 1 := by
  rw [sizeAOfLow]; omega

theorem exec_ldcs (x : Bool) (c : Nat) (s : State) : exec (.ldcs x c) s = .next (acceptLdcs s.due x c s) := rfl

theorem exec_stcs (x : Bool) (c : Nat) (s : State) : exec (.stcs x c) s = .next (acceptStcs s.due x c s) := rfl

theorem exec_rept (x : Bool) (u b : Nat) (s : State) : exec (.rept x u b) s = .next (acceptRept s.due x u b s) := rfl

theorem exec_key (x : Bool) (u : Nat) (s : State) : exec (.key x u) s = .next (acceptKey s.due x u s) := rfl

/-- Settles O23: the mechanical sizes of an address of four bits. -/
theorem driverAcceptsControlOpcodes : Obligations.DriverAcceptsControlOpcodes := by
  intro s x c hs hc
  have hA := sizeAOfLow_of_le (of_decide_eq_true hc)
  rw [exec_ldcs, exec_stcs, due_of_samples_nil hs, acceptLdcs, acceptStcs, hA, acceptOpcode_driver, acceptOpcode_driver]
  exact ⟨rfl, rfl⟩

/-- Settles O24: REPEAT has its sizes in its operands, KEY those of its unused bits. -/
theorem driverAcceptsRepeatAndKey : Obligations.DriverAcceptsRepeatAndKey := by
  refine ⟨fun s x u b hs _ _ => ?rept, fun s x u hs hu => ?key⟩
  case rept =>
    rw [exec_rept, due_of_samples_nil hs, acceptRept, acceptOpcode_driver]
    rfl
  case key =>
    rw [exec_key, due_of_samples_nil hs, acceptKey, sizeAOfLow_of_le hu, acceptOpcode_driver]
    rfl

end Sys2Proof.Machine

/-! ## The device-ID word -/

namespace Sys2Proof.Machine

open Sys2Proof

/-- Version, part, manufacturer and bit 0 follow one another without a gap (30_encoding.md R77). -/
theorem idFields_append (w : Word32) :
    idVersion w ++ idPart w ++ idManufacturer w ++ w.extractLsb' 0 1 = w := by
  have hpart : idVersion w ++ idPart w = w.extractLsb' 12 20 := BitVec.extractLsb'_append_extractLsb'_eq_extractLsb' rfl
  have hmanufacturer : w.extractLsb' 12 20 ++ idManufacturer w = w.extractLsb' 1 31 :=
    BitVec.extractLsb'_append_extractLsb'_eq_extractLsb' rfl
  have hbit : w.extractLsb' 1 31 ++ w.extractLsb' 0 1 = w.extractLsb' 0 32 :=
    BitVec.extractLsb'_append_extractLsb'_eq_extractLsb' rfl
  rw [hpart, hmanufacturer, hbit, BitVec.extractLsb'_eq_self]

/-- Settles O59: the tiling for every word, the source's example by evaluation. -/
theorem deviceIdFieldsTileTheWord : Obligations.DeviceIdFieldsTileTheWord :=
  ⟨idFields_append, fun _ _ _ _ => rfl, rfl⟩

end Sys2Proof.Machine

/-! ## The Mnemonic Encoder -/

namespace Sys2Proof.Machine

open Sys2Proof

/-- The bytes of a number, least significant first, are its digits to the base 256 (30_encoding.md R92). -/
theorem leBytes_eq (n v : Nat) : leBytes n v = (List.range n).map fun k => BitVec.ofNat 8 (v / 256 ^ k) := by
  induction n generalizing v with
  | zero => rfl
  | succ n ih =>
    rw [leBytes, ih, List.range_succ_eq_map, List.map_cons, List.map_map, pow_zero, Nat.div_one]
    simp only [Function.comp_def, Nat.succ_eq_add_one, pow_succ', Nat.div_div_eq_div_mul]

theorem leBytes_length (n v : Nat) : (leBytes n v).length = n := by
  rw [leBytes_eq, List.length_map, List.length_range]

theorem sizeOk_mode (e : PtrExpr) : sizeOk e.mode = true := by cases e <;> rfl

/-! ### What an accepted line becomes -/

section Accepted

variable {p : MnemonicParams} {active act : Option Nat} {bs : List Byte}

theorem encodeLine_lds {s : Suffix} {addr a b : Nat} (hab : p.ldsSizes s addr = (a, b))
    (h : encodeLine p active (.lds s addr) = .bytes bs act) :
    (Instr.lds false a b).wf = true ∧ (p.addressBytes a addr).length = a ∧
      bs = pdiCommand (.lds false a b) (p.addressBytes a addr) ∧ act = active := by
  simp only [encodeLine, hab, encodeLine.sizeAOk] at h
  split_ifs at h with hok
  cases h
  obtain ⟨hfits, hlen⟩ := Bool.and_eq_true_iff.mp hok
  exact ⟨(Bool.and_eq_true_iff.mp hfits).1, of_decide_eq_true hlen, rfl, rfl⟩

theorem encodeLine_sts {s : Suffix} {addr a b : Nat} {data : List Byte} (hab : p.stsSizes s addr = (a, b))
    (h : encodeLine p active (.sts s addr data) = .bytes bs act) :
    (Instr.sts false a b).wf = true ∧ (p.addressBytes a addr).length = a ∧ data.length = b ∧
      bs = pdiCommand (.sts false a b) (p.addressBytes a addr ++ data) ∧ act = active := by
  simp only [encodeLine, hab, encodeLine.sizeAOk] at h
  split_ifs at h with hbad hdata
  cases h
  rw [Bool.not_eq_true', Bool.not_eq_false] at hbad
  obtain ⟨hfits, hlen⟩ := Bool.and_eq_true_iff.mp hbad
  exact ⟨(Bool.and_eq_true_iff.mp hfits).1, of_decide_eq_true hlen, not_not.mp hdata, rfl, rfl⟩

theorem encodeLine_ld {s : Option Suffix} {e : PtrExpr} (h : encodeLine p active (.ld s e) = .bytes bs act) :
    (Instr.ld false e.mode (p.ldSize s)).wf = true ∧ bs = pdiCommand (.ld false e.mode (p.ldSize s)) [] ∧
      act = none := by
  simp only [encodeLine] at h
  split_ifs at h with _ hsize
  cases h
  rw [Bool.not_eq_true', Bool.not_eq_false] at hsize
  exact ⟨Bool.and_eq_true_iff.mpr ⟨sizeOk_mode e, hsize⟩, rfl, rfl⟩

theorem encodeLine_st {s : Option Suffix} {e : PtrExpr} {data : List Byte}
    (h : encodeLine p active (.st s e data) = .bytes bs act) :
    (Instr.st false e.mode (p.stSize s)).wf = true ∧ data.length = p.stSize s * (active.getD 0 + 1) ∧
      bs = pdiCommand (.st false e.mode (p.stSize s)) data ∧ act = none := by
  simp only [encodeLine] at h
  split_ifs at h with _ hsize hdata
  cases h
  rw [Bool.not_eq_true', Bool.not_eq_false] at hsize
  exact ⟨Bool.and_eq_true_iff.mpr ⟨sizeOk_mode e, hsize⟩, not_not.mp hdata, rfl, rfl⟩

theorem encodeLine_ldcs {r : CsReg} (h : encodeLine p active (.ldcs r) = .bytes bs act) :
    r.address ≤ 15 ∧ bs = pdiCommand (.ldcs false r.address) [] ∧ act = active := by
  simp only [encodeLine] at h
  split_ifs at h with hr
  cases h
  exact ⟨of_decide_eq_true hr, rfl, rfl⟩

theorem encodeLine_stcs {r : CsReg} {v : Byte} (h : encodeLine p active (.stcs r v) = .bytes bs act) :
    r.address ≤ 15 ∧ bs = pdiCommand (.stcs false r.address) [v] ∧ act = active := by
  simp only [encodeLine] at h
  split_ifs at h with hr
  cases h
  exact ⟨of_decide_eq_true hr, rfl, rfl⟩

theorem encodeLine_rept {n : Nat} (h : encodeLine p active (.rept n) = .bytes bs act) :
    (Instr.rept false 0 (p.repeatBytes n)).wf = true ∧ n < 256 ^ p.repeatBytes n ∧
      bs = pdiCommand (.rept false 0 (p.repeatBytes n)) (leBytes (p.repeatBytes n) n) ∧ act = some n := by
  simp only [encodeLine] at h
  split_ifs at h with hn
  cases h
  exact ⟨hn.1, hn.2, rfl, rfl⟩

theorem keyCommand_bytes {k : List Byte} (h : encodeLine.keyCommand k active = .bytes bs act) :
    k.length = 8 ∧ bs = pdiCommand (.key false 0) k ∧ act = active := by
  unfold encodeLine.keyCommand at h
  split_ifs at h with hk
  cases h
  exact ⟨hk, rfl, rfl⟩

end Accepted

/-! ### A whole command -/

/-- The header, the opcode byte as a number, the write bytes; the spare bit is 0 (30_encoding.md R74). -/
theorem pdiCommand_eq {i : Instr} {k low n : Nat} (hi : byteOf i = opcodeByte k false low) (hn : 32 * k + low = n)
    (writes : List Byte) : pdiCommand i writes = 0x11 :: BitVec.ofNat 8 n :: writes := by
  rw [pdiCommand, hi, ← hn]
  rfl

theorem pdiCommand_lds (a b : Nat) (writes : List Byte) :
    pdiCommand (.lds false a b) writes = 0x11 :: BitVec.ofNat 8 ((a - 1) * 4 + (b - 1)) :: writes :=
  pdiCommand_eq rfl (by omega) writes

theorem pdiCommand_sts (a b : Nat) (writes : List Byte) :
    pdiCommand (.sts false a b) writes = 0x11 :: BitVec.ofNat 8 (0x40 + (a - 1) * 4 + (b - 1)) :: writes :=
  pdiCommand_eq rfl (by omega) writes

/-- `bs` is one `PDI` command of a documented opcode byte, with as many write bytes as the block takes for it when `r`
further iterations are pending (30_encoding.md R81, R88). -/
def WholeCommand (r : Nat) (bs : List Byte) : Prop :=
  ∃ (byte : Byte) (writes : List Byte), bs = 0x11 :: byte :: writes ∧ (decodeOpcode byte).documented = true ∧
    writes.length = (counts byte r).1

/-- The decoder gives the encoded instruction back, so its fields and its counts are the instruction's own. -/
theorem pdiCommand_whole {i : Instr} {r : Nat} {writes : List Byte} (hwf : i.wf = true)
    (hf : (encode i).fmt = .pdiOpcode) (hdoc : i.documented = true)
    (hw : decodeOpcode (byteOf i) = i → writes.length = (counts (byteOf i) r).1) :
    WholeCommand r (pdiCommand i writes) :=
  have hd := decodeOpcode_byteOf hwf hf
  ⟨byteOf i, writes, rfl, hd.symm ▸ hdoc, hw hd⟩

/-- Settles O60: the instruction each accepted line is the command of, then its byte and its counts. -/
theorem encodedLinesAreWholePdiCommands : Obligations.EncodedLinesAreWholePdiCommands := by
  refine ⟨?accepted, fun p n s e data => ⟨rfl, rfl⟩⟩
  intro p active act l bs h
  cases l with
  | lds s addr =>
    obtain ⟨hwf, hlen, rfl, rfl⟩ := encodeLine_lds rfl h
    exact ⟨⟨pdiCommand_lds _ _ _, hlen, rfl⟩,
      pdiCommand_whole hwf rfl rfl fun hd => by rw [counts, hd]; exact hlen⟩
  | sts s addr data =>
    obtain ⟨hwf, hlen, hdata, rfl, rfl⟩ := encodeLine_sts rfl h
    exact ⟨⟨pdiCommand_sts _ _ _, hlen, hdata, rfl⟩,
      pdiCommand_whole hwf rfl rfl fun hd => by rw [counts, hd, List.length_append, hlen, hdata]⟩
  | ld s e =>
    obtain ⟨hwf, rfl, rfl⟩ := encodeLine_ld h
    exact ⟨⟨pdiCommand_eq rfl (by omega) _, rfl⟩,
      pdiCommand_whole hwf rfl rfl fun hd => by rw [counts, hd]; rfl⟩
  | st s e data =>
    obtain ⟨hwf, hdata, rfl, rfl⟩ := encodeLine_st h
    exact ⟨⟨pdiCommand_eq rfl (by omega) _, hdata, rfl⟩,
      pdiCommand_whole hwf rfl rfl fun hd => by rw [counts, hd]; exact hdata⟩
  | ldcs r =>
    obtain ⟨hr, rfl, rfl⟩ := encodeLine_ldcs h
    exact ⟨⟨pdiCommand_eq rfl (by omega) _, hr, rfl⟩,
      pdiCommand_whole (decide_eq_true hr) rfl rfl fun hd => by rw [counts, hd]; rfl⟩
  | stcs r v =>
    obtain ⟨hr, rfl, rfl⟩ := encodeLine_stcs h
    exact ⟨⟨pdiCommand_eq rfl (by omega) _, hr, rfl⟩,
      pdiCommand_whole (decide_eq_true hr) rfl rfl fun hd => by rw [counts, hd]; rfl⟩
  | rept n =>
    obtain ⟨hwf, hn, rfl, rfl⟩ := encodeLine_rept h
    have hbytes := pdiCommand_eq (i := .rept false 0 (p.repeatBytes n)) rfl (n := 0xA0 + (p.repeatBytes n - 1))
      (by omega) (leBytes (p.repeatBytes n) n)
    refine ⟨⟨leBytes_eq _ n ▸ hbytes, hn, rfl⟩, pdiCommand_whole hwf rfl rfl fun hd => ?_⟩
    rw [counts, hd]
    exact leBytes_length _ n
  | key name =>
    cases name with
    | nvm =>
      obtain ⟨hlen, rfl, rfl⟩ := keyCommand_bytes h
      exact ⟨⟨pdiCommand_eq (n := 0xE0) rfl rfl _, rfl⟩,
        pdiCommand_whole rfl rfl rfl fun hd => by rw [counts, hd]; exact hlen⟩
    | debug =>
      obtain ⟨hlen, rfl, rfl⟩ := keyCommand_bytes h
      exact ⟨⟨pdiCommand_eq (n := 0xE0) rfl rfl _, rfl⟩,
        pdiCommand_whole rfl rfl rfl fun hd => by rw [counts, hd]; exact hlen⟩

end Sys2Proof.Machine

/-! # Proofs about the TAP core (40_tap.md)

O51: the invariant `Driver.Aligned`, by what a bus step makes of the TAP core and by what may begin between two
operations. O6 to O11 and O15 to O17: the rows of either role, each a row of the table with one full next state.
O26: the JTAG instructions. O19 and O20: five high decision bits. -/

/-! ## The TAP core along a sequence -/

namespace Sys2Proof.Machine

open Sys2Proof

/-- One bus step of a Driver as its TAP core sees it: no register takes part (40_tap.md R100, R117, R119, R120). -/
def Tap.step (t : Tap) (x : Pair) : Tap where
  state := tapNext t.state x.tms
  ir :=
    match tapNext t.state x.tms with
    | .reset => 0x3
    | .updateIR => t.irNext
    | _ => t.ir
  irNext := if t.state = .shiftIR then shiftInIr x.tdi t.irNext else t.irNext

theorem port_step_tap (q : Port) (x : Pair) (tdo : Bool) : (q.step x tdo).tap = q.tap.step x := by
  obtain ⟨⟨st, ir, irNext⟩, sr, pdiOut, pdiIn, idcode⟩ := q
  obtain ⟨tms, tdi⟩ := x
  cases st <;> cases tms <;> rfl

theorem driverTap_tap_step {s : State} {x : Pair} (h : s.currentPair = some x) :
    (driverTap s.drv.tap.state x.tms s).drv.tap = s.drv.tap.step x := by
  rw [driverTap_tap, drvTdi_of_currentPair h, tapStep_driver]
  exact port_step_tap _ x _

theorem Tap.step_ir_of_reset {t : Tap} {x : Pair} (h : tapNext t.state x.tms = .reset) : (t.step x).ir = 0x3 := by
  simp only [Tap.step, h]

theorem Tap.step_ir_of_updateIR {t : Tap} {x : Pair} (h : tapNext t.state x.tms = .updateIR) :
    (t.step x).ir = t.irNext := by
  simp only [Tap.step, h]

theorem Tap.step_ir_of_ne {t : Tap} {x : Pair} (hr : tapNext t.state x.tms ≠ .reset)
    (hu : tapNext t.state x.tms ≠ .updateIR) : (t.step x).ir = t.ir := by
  unfold Tap.step
  dsimp only
  split
  · contradiction
  · contradiction
  · rfl

theorem Tap.step_irNext_of_shiftIR {t : Tap} (h : t.state = .shiftIR) (x : Pair) :
    (t.step x).irNext = shiftInIr x.tdi t.irNext := if_pos h

theorem shiftInIr_getLsbD (b : Bool) (r : IrCode) (i : Nat) :
    (shiftInIr b r).getLsbD i = if i < 3 then r.getLsbD (i + 1) else decide (i = 3) && b := by
  rw [shiftInIr, BitVec.getLsbD_append, BitVec.getLsbD_extractLsb', BitVec.getLsbD_ofBool]
  by_cases h : i < 3
  · simp [h, Nat.add_comm]
  · have h3 : i - 3 = 0 ↔ i = 3 := by omega
    simp [h, h3]

/-- One more pair of a sequence is one more move of the TAP. -/
theorem driveTap_take_succ {xs : List Pair} {i : Nat} {x : Pair} (h : xs[i]? = some x) (st : TapState) :
    driveTap st (xs.take (i + 1)) = tapNext (driveTap st (xs.take i)) x.tms := by
  rw [List.take_add_one, h, driveTap, List.foldl_append]
  rfl

theorem lt_length_of_currentPair {s : State} {x : Pair} (h : s.currentPair = some x) :
    s.drv.idx < (opSeq s.drv.op).length := (List.getElem?_eq_some_iff.mp h).1

/-! ### The Reset sequence (42_tap_driver.md R147) -/

theorem driveTap_resetSeq_high (st : TapState) : driveTap st (resetSeq.take Config.nResetHigh) = .reset := by
  cases st <;> rfl

theorem driveTap_resetSeq (st : TapState) : driveTap st resetSeq = .idle := by cases st <;> rfl

/-! ### The scans (42_tap_driver.md R148, R149) -/

theorem driveTap_opSeq {op : DriverOp} (h : op.scans = true) : driveTap .idle (opSeq op) = .idle := by
  cases op
  case readId => rfl
  case pdiTransfer => rfl
  all_goals cases h

/-- A scan begun in IDLE does not pass RESET, and UPDATE-IR only with the last pair of its instruction scan. -/
theorem driveTap_opSeq_entries {op : DriverOp} (h : op.scans = true) : ∀ i < (opSeq op).length,
    driveTap .idle ((opSeq op).take (i + 1)) ≠ .reset ∧
      (driveTap .idle ((opSeq op).take (i + 1)) = .updateIR ↔ i = 8) := by
  cases op
  case readId => decide
  case pdiTransfer => decide
  all_goals cases h

/-- Pairs 4 to 7 of a scan are driven in SHIFT-IR and carry the bits of the code. -/
theorem opSeq_shiftIR {op : DriverOp} (h : op.scans = true) {i : Nat} {x : Pair} (hx : (opSeq op)[i]? = some x)
    (h4 : 4 ≤ i) (h7 : i ≤ 7) :
    driveTap .idle ((opSeq op).take i) = .shiftIR ∧ x.tdi = op.code.getLsbD (i - 4) := by
  cases op
  case readId => interval_cases i <;> cases hx <;> exact ⟨rfl, rfl⟩
  case pdiTransfer => interval_cases i <;> cases hx <;> exact ⟨rfl, rfl⟩
  all_goals cases h

/-- A data scan leaves IDLE as it leaves UPDATE-IR, where the instruction scan has ended (42_tap_driver.md R150). -/
theorem tapNext_opSeq_nine {op : DriverOp} (h : op.scans = true) {x : Pair} (hx : (opSeq op)[9]? = some x) :
    tapNext .idle x.tms = driveTap .idle ((opSeq op).take 10) := by
  cases op
  case readId => cases hx; rfl
  case pdiTransfer => cases hx; rfl
  all_goals cases h

end Sys2Proof.Machine

/-! ## A Driver in step with its sequences -/

namespace Sys2Proof.Machine

open Sys2Proof

/-- One of the two codes a Driver latches (40_tap.md R127, R128). -/
def Tap.Named (t : Tap) : Prop := t.ir = 0x3 ∨ t.ir = 0x7

/-- The TAP core before pair `i` of a scanning operation: what `Driver.Aligned` asks of it. -/
structure Tap.InScan (t : Tap) (op : DriverOp) (i : Nat) : Prop where
  state : t.state = driveTap .idle ((opSeq op).take i) ∨ (i = 9 ∧ t.state = .idle)
  named : t.Named
  latched : 9 ≤ i → t.ir = op.code
  pending : 4 ≤ i → i ≤ 8 → ∀ j, j < i - 4 → t.irNext.getLsbD (8 - i + j) = op.code.getLsbD j

theorem scans_iff (op : DriverOp) : op.scans = true ↔ op = .readId ∨ op = .pdiTransfer := by
  cases op <;> simp [DriverOp.scans]

theorem named_code (op : DriverOp) : op.code = 0x3 ∨ op.code = 0x7 := by
  cases op
  case pdiTransfer => exact .inr rfl
  all_goals exact .inl rfl

theorem aligned_iff_of_none {d : Driver} (h : d.op = .none) : d.Aligned ↔ d.tap.state = .idle ∧ d.tap.Named := by
  simp [Driver.Aligned, Driver.TapAligned, Driver.IrAligned, h, DriverOp.scans, Tap.Named]

theorem aligned_iff_of_reset {d : Driver} (h : d.op = .reset) :
    d.Aligned ↔ (d.idx < resetSeq.length ∧ ∃ st, d.tap.state = driveTap st (resetSeq.take d.idx)) ∧
      (Config.nResetHigh ≤ d.idx → d.tap.Named) := by
  simp [Driver.Aligned, Driver.TapAligned, Driver.IrAligned, h, DriverOp.scans, Tap.Named]

theorem aligned_iff_of_scans {d : Driver} (h : d.op.scans = true) :
    d.Aligned ↔ d.idx < (opSeq d.op).length ∧ d.tap.InScan d.op d.idx := by
  have hstate : d.TapAligned ↔ d.idx < (opSeq d.op).length ∧
      (d.tap.state = driveTap .idle ((opSeq d.op).take d.idx) ∨ (d.idx = 9 ∧ d.tap.state = .idle)) := by
    rcases (scans_iff _).mp h with ho | ho <;> rw [Driver.TapAligned, ho]
  have hreset : ¬ (d.op = .reset ∧ d.idx < Config.nResetHigh) := fun hr => by rw [hr.1] at h; cases h
  rw [Driver.Aligned, hstate, Driver.IrAligned]
  constructor
  · rintro ⟨⟨hlt, hst⟩, hnamed, hscan⟩
    exact ⟨hlt, hst, hnamed hreset, (hscan h).1, (hscan h).2⟩
  · rintro ⟨hlt, hst, hnamed, hlatched, hpending⟩
    exact ⟨⟨hlt, hst⟩, fun _ => hnamed, fun _ => ⟨hlatched, hpending⟩⟩

/-! ### A bus step -/

/-- A pair of a scan moves the TAP core on to the place before the next pair. The code is latched at the pair that
enters UPDATE-IR, where the pending bits are all of it. -/
theorem Tap.InScan.step {t : Tap} {op : DriverOp} {i : Nat} {x : Pair} (h : t.InScan op i) (hop : op.scans = true)
    (hx : (opSeq op)[i]? = some x) : (t.step x).InScan op (i + 1) := by
  have hlt : i < (opSeq op).length := (List.getElem?_eq_some_iff.mp hx).1
  have hnext : tapNext t.state x.tms = driveTap .idle ((opSeq op).take (i + 1)) := by
    rcases h.state with hst | ⟨rfl, hst⟩
    · rw [hst, driveTap_take_succ hx]
    · rw [hst, tapNext_opSeq_nine hop hx]
  obtain ⟨hreset, hupdate⟩ := driveTap_opSeq_entries hop i hlt
  rw [← hnext] at hreset hupdate
  have hir : (i = 8 ∧ (t.step x).ir = op.code) ∨ (i ≠ 8 ∧ (t.step x).ir = t.ir) := by
    by_cases h8 : i = 8
    · refine .inl ⟨h8, ?_⟩
      rw [Tap.step_ir_of_updateIR (hupdate.mpr h8)]
      refine BitVec.eq_of_getLsbD_eq fun j hj => ?_
      have hbit := h.pending (by omega) (by omega) j (by omega)
      rwa [h8, Nat.sub_self, Nat.zero_add] at hbit
    · exact .inr ⟨h8, Tap.step_ir_of_ne hreset fun hu => h8 (hupdate.mp hu)⟩
  refine ⟨.inl hnext, ?named, fun h9 => ?latched, fun h4 h8 j hj => ?pending⟩
  case named =>
    rcases hir with ⟨-, hir⟩ | ⟨-, hir⟩ <;> rw [Tap.Named, hir]
    · exact named_code op
    · exact h.named
  case latched =>
    rcases hir with ⟨-, hir⟩ | ⟨h8, hir⟩ <;> rw [hir]
    exact h.latched (by omega)
  case pending =>
    obtain ⟨hshift, htdi⟩ := opSeq_shiftIR hop hx (by omega) (by omega)
    have hst : t.state = .shiftIR := by
      rcases h.state with hst | ⟨h9, -⟩
      · rw [hst, hshift]
      · omega
    rw [Tap.step_irNext_of_shiftIR hst, shiftInIr_getLsbD, htdi]
    split
    · rw [← h.pending (by omega) (by omega) j (by omega)]
      congr 1
      omega
    · rw [show j = i - 4 by omega, decide_eq_true (by omega), Bool.true_and]

theorem advance_op_of_last {s : State} (h : (opSeq s.drv.op).length ≤ s.drv.idx + 1) :
    (advance s).drv.op = .none := by
  rw [advance_of_last h]

theorem advance_op_idx_of_more {s : State} (h : s.drv.idx + 1 < (opSeq s.drv.op).length) :
    (advance s).drv.op = s.drv.op ∧ (advance s).drv.idx = s.drv.idx + 1 := by
  rw [advance_of_more h]
  exact ⟨rfl, rfl⟩

theorem driverTap_op_of_last {s : State} (p : TapState) (tms : Bool)
    (h : (opSeq s.drv.op).length ≤ s.drv.idx + 1) : (driverTap p tms s).drv.op = .none := by
  obtain ⟨t, sr, u, id, bus, td, ev, heq⟩ := driverTap_frame p tms s
  rw [heq]
  exact advance_op_of_last h

theorem driverTap_op_idx_of_more {s : State} (p : TapState) (tms : Bool)
    (h : s.drv.idx + 1 < (opSeq s.drv.op).length) :
    (driverTap p tms s).drv.op = s.drv.op ∧ (driverTap p tms s).drv.idx = s.drv.idx + 1 := by
  obtain ⟨t, sr, u, id, bus, td, ev, heq⟩ := driverTap_frame p tms s
  rw [heq]
  exact advance_op_idx_of_more h

/-- The bus steps of a scan, the last of which is taken in UPDATE-DR and ends in IDLE. -/
theorem driverTap_aligned_of_scans {s : State} {x : Pair} (h : s.drv.Aligned) (hop : s.drv.op.scans = true)
    (hx : s.currentPair = some x) : (driverTap s.drv.tap.state x.tms s).drv.Aligned := by
  obtain ⟨hlt, hin⟩ := (aligned_iff_of_scans hop).mp h
  have hstep := hin.step hop hx
  rw [← driverTap_tap_step hx] at hstep
  rcases Nat.lt_or_ge (s.drv.idx + 1) (opSeq s.drv.op).length with hmore | hlast
  · obtain ⟨ho, hi⟩ := driverTap_op_idx_of_more s.drv.tap.state x.tms hmore
    rw [← ho] at hop
    rw [aligned_iff_of_scans hop, ho, hi]
    exact ⟨hmore, hstep⟩
  · rw [aligned_iff_of_none (driverTap_op_of_last _ _ hlast)]
    refine ⟨?_, hstep.named⟩
    rcases hstep.state with hst | ⟨-, hst⟩
    · rw [hst, List.take_of_length_le hlast, driveTap_opSeq hop]
    · exact hst

/-- The bus steps of a Reset sequence: five decision bits of 1 lead to RESET, where IDCODE is latched, and the last one
to IDLE. -/
theorem driverTap_aligned_of_reset {s : State} {x : Pair} (h : s.drv.Aligned) (hop : s.drv.op = .reset)
    (hx : s.currentPair = some x) : (driverTap s.drv.tap.state x.tms s).drv.Aligned := by
  obtain ⟨⟨hlt, st, hst⟩, hnamed⟩ := (aligned_iff_of_reset hop).mp h
  have hseq : opSeq s.drv.op = resetSeq := by rw [hop]; rfl
  have hnext : tapNext s.drv.tap.state x.tms = driveTap st (resetSeq.take (s.drv.idx + 1)) := by
    rw [State.currentPair, hseq] at hx
    rw [hst, driveTap_take_succ hx]
  have htap := driverTap_tap_step hx
  rcases Nat.lt_or_ge (s.drv.idx + 1) (opSeq s.drv.op).length with hmore | hlast
  · obtain ⟨ho, hi⟩ := driverTap_op_idx_of_more s.drv.tap.state x.tms hmore
    rw [hseq] at hmore
    rw [aligned_iff_of_reset (ho.trans hop), hi, htap]
    refine ⟨⟨hmore, st, hnext⟩, fun h5 => .inl (Tap.step_ir_of_reset ?_)⟩
    have hidx : s.drv.idx + 1 = Config.nResetHigh := by
      have hlen : resetSeq.length = Config.nResetHigh + 1 := rfl
      omega
    rw [hnext, hidx, driveTap_resetSeq_high]
  · rw [hseq] at hlast
    have hidle : tapNext s.drv.tap.state x.tms = .idle := by
      rw [hnext, List.take_of_length_le hlast, driveTap_resetSeq]
    have hir : (s.drv.tap.step x).ir = s.drv.tap.ir :=
      Tap.step_ir_of_ne (by rw [hidle]; decide) (by rw [hidle]; decide)
    rw [aligned_iff_of_none (driverTap_op_of_last _ _ (hseq ▸ hlast)), htap, Tap.Named, hir]
    exact ⟨hidle, hnamed (Nat.le_of_succ_le_succ hlast)⟩

/-- An aligned Driver with an operation running has a pair to drive. -/
theorem Driver.Aligned.idx_lt {d : Driver} (h : d.Aligned) (ho : d.op ≠ .none) : d.idx < (opSeq d.op).length := by
  cases hop : d.op with
  | none => contradiction
  | reset => exact ((aligned_iff_of_reset hop).mp h).1.1
  | readId => exact hop ▸ ((aligned_iff_of_scans (by rw [hop]; rfl)).mp h).1
  | pdiTransfer => exact hop ▸ ((aligned_iff_of_scans (by rw [hop]; rfl)).mp h).1

theorem driverTap_aligned {s : State} {x : Pair} (h : s.drv.Aligned) (ho : s.drv.op ≠ .none)
    (hx : s.currentPair = some x) : (driverTap s.drv.tap.state x.tms s).drv.Aligned := by
  cases hop : s.drv.op with
  | none => contradiction
  | reset => exact driverTap_aligned_of_reset h hop hx
  | readId => exact driverTap_aligned_of_scans h (by rw [hop]; rfl) hx
  | pdiTransfer => exact driverTap_aligned_of_scans h (by rw [hop]; rfl) hx

/-! ### The start of an operation -/

/-- What an action between two operations makes of the sequencer: no operation, or one that begins where its code
bids it (42_tap_driver.md R147, R150 to R152). -/
inductive Begins (s t : State) : Prop
  | rest (op : t.drv.op = .none)
  | reset (op : t.drv.op = .reset) (idx : t.drv.idx = 0)
  | scan (op : t.drv.op.scans = true) (idx : t.drv.idx = startIdx t.drv.op.code s)

/-- Between two operations an aligned Driver stands in IDLE with a code latched, where every operation may begin. -/
theorem Begins.aligned {s t : State} (hb : Begins s t) (h : s.drv.Aligned) (ho : s.drv.op = .none)
    (htap : t.drv.tap = s.drv.tap) : t.drv.Aligned := by
  obtain ⟨hidle, hnamed⟩ := (aligned_iff_of_none ho).mp h
  rw [← htap] at hidle hnamed
  cases hb with
  | rest hop => exact (aligned_iff_of_none hop).mpr ⟨hidle, hnamed⟩
  | reset hop hidx =>
    rw [aligned_iff_of_reset hop, hidx]
    exact ⟨⟨by decide, t.drv.tap.state, rfl⟩, fun _ => hnamed⟩
  | scan hop hidx =>
    have hlen := opSeq_length_of_scans hop
    rw [aligned_iff_of_scans hop]
    by_cases hir : t.drv.tap.ir = t.drv.op.code
    · have h9 : t.drv.idx = 9 := hidx.trans (if_pos (htap ▸ hir))
      rw [h9, hlen]
      exact ⟨by omega, .inr ⟨rfl, hidle⟩, hnamed, fun _ => hir, fun _ _ => by omega⟩
    · have h0 : t.drv.idx = 0 := hidx.trans (if_neg (htap ▸ hir))
      rw [h0, hlen]
      exact ⟨by omega, .inl hidle, hnamed, fun _ => by omega, fun _ _ => by omega⟩

theorem headerEffect_begins {s : State} (ho : s.drv.op = .none) (b : Byte) : Begins s (headerEffect b s.hostRead) := by
  obtain ⟨o, l, hr⟩ := hostRead_frame s
  rw [hr]
  unfold headerEffect
  split_ifs
  · exact .reset rfl rfl
  · exact .scan rfl rfl
  · exact .rest ho
  · exact .rest ho

theorem acceptByte_begins (s : State) (b : Byte) : Begins s (acceptByte .driver b s.hostRead) := by
  obtain ⟨byte, op, x, y, w, n, -, -, heq⟩ := acceptByte_cases b
  obtain ⟨o, l, hr⟩ := hostRead_frame s
  rw [heq, hr]
  exact .scan rfl rfl

theorem loopTest_op (s : State) : (loopTest s).drv.op = s.drv.op := by unfold loopTest; split <;> rfl

theorem writeSlot_driver_op (u : Unit9) (s : State) : (writeSlot .driver u s).drv.op = s.drv.op := by
  rw [writeSlot_driver]; split <;> rfl

theorem readSlot_driver_op (u : Unit9) (s : State) : (readSlot .driver u s).drv.op = s.drv.op := by
  rw [readSlot_driver]; split <;> rfl

theorem finishWrite_op (s : State) : (finishWrite s).drv.op = s.drv.op := by
  rw [finishWrite, loopTest_op, writeSlot_driver_op]; rfl

theorem finishRead_op (s : State) : (finishRead s).drv.op = s.drv.op := by
  by_cases h : parityOk s.drv.pdiIn = true
  · rw [finishRead_of_good h, loopTest_op, readSlot_driver_op]; rfl
  · rw [finishRead_of_bad h]; rfl

theorem startWrite_begins {s : State} (ho : s.drv.op = .none) : Begins s (startWrite s) := by
  obtain ⟨o, l, hr⟩ := hostRead_frame s
  unfold startWrite
  rw [hr]
  split
  · exact .rest ho
  · exact .scan rfl rfl

theorem nextSlotAction_begins {s : State} (ho : s.drv.op = .none) : Begins s (nextSlotAction s) := by
  unfold nextSlotAction
  split
  · exact .rest ho
  · split
    · exact startWrite_begins ho
    · exact .scan rfl rfl
    · exact .rest ho

theorem adapterRun_begins {s : State} (ho : s.drv.op = .none) : Begins s (adapterRun s) := by
  unfold adapterRun
  split
  · exact .rest ho
  · exact .rest ho
  · exact .rest ho
  · exact .rest ((finishWrite_op s).trans ho)
  · exact .rest ((finishRead_op s).trans ho)
  · exact nextSlotAction_begins ho

theorem step_begins {s t : State} (h : s.obs.samples = []) (ho : s.drv.op = .none) (hst : step s = .next t) :
    Begins s t := by
  rcases step_cases s with ⟨b, rest, hb, -⟩ | ⟨-, hs⟩
  · exact absurd (h.symm.trans hb) nofun
  · rcases hs with ⟨hop, -⟩ | ⟨hop, -⟩ | ⟨-, -, -, hs⟩ | ⟨-, -, b, -, hs⟩ | ⟨-, -, b, -, hs⟩ | ⟨-, -, hs⟩
    · exact absurd ho hop
    · exact absurd ho hop
    all_goals obtain rfl := Host.Outcome.next.inj (hs.symm.trans hst)
    · exact .rest ho
    · exact headerEffect_begins ho b
    · exact acceptByte_begins s b
    · exact adapterRun_begins ho

/-- Settles O51: a sample leaves the Driver alone; between two operations one may begin in IDLE; while one runs its next
pair is driven. -/
theorem stepKeepsTheDriverAligned : Obligations.StepKeepsTheDriverAligned := by
  intro s t h hst
  by_cases hs : s.obs.samples = []
  · by_cases ho : s.drv.op = .none
    · exact (step_begins hs ho hst).aligned h ho (step_linkUntouched hs ho hst).tap
    · have hx := List.getElem?_eq_getElem (h.idx_lt ho)
      obtain rfl := Host.Outcome.next.inj ((step_pair hs ho hx).symm.trans hst)
      exact driverTap_aligned h ho hx
  · rw [step_drv_of_sample hs hst]
    exact h

end Sys2Proof.Machine

/-! ## The rows of the table -/

namespace Sys2Proof.Machine

open Sys2Proof Sys2Proof.Spec

/-- A row of the table executes as the TAP step from its state on its decision bit. -/
theorem exec_of_tapRows {i : Instr} {p n : TapState} {t : Bool} (h : (i, p, t, n) ∈ tapRows) (s : State) :
    tapNext p t = n ∧ exec i s = .next (tapInstr p t s) := by
  obtain ⟨rfl, rfl⟩ : tapRow p t = i ∧ tapNext p t = n := tapRows_eq _ h
  exact ⟨rfl, exec_tapRow p t s⟩

theorem exec_observer_row {s : State} {b : BusSample} {rest : List BusSample} {i : Instr} {p n : TapState} {t : Bool}
    (hs : s.obs.samples = b :: rest) (h : (i, p, t, n) ∈ tapRows) :
    tapNext p t = n ∧ exec i s = .next (observerTap p t b s) := by
  have hrow := exec_of_tapRows h s
  rwa [tapInstr, hs] at hrow

theorem exec_driver_row {s : State} {i : Instr} {p n : TapState} {t : Bool} (hs : s.obs.samples = [])
    (h : (i, p, t, n) ∈ tapRows) : tapNext p t = n ∧ exec i s = .next (driverTap p t s) := by
  have hrow := exec_of_tapRows h s
  rwa [tapInstr, hs] at hrow

/-- No step has an action both of its state and of its entry: the three states entered with an action are not reached
from the three states with one (40_tap.md R100). -/
theorem tapNext_of_state_action {p : TapState} (h : p = .captureDR ∨ p = .shiftDR ∨ p = .shiftIR) (t : Bool) :
    tapNext p t ≠ .reset ∧ tapNext p t ≠ .updateIR ∧ tapNext p t ≠ .updateDR := by
  rcases h with rfl | rfl | rfl <;> cases t <;> decide

theorem ne_of_entry_action {p n : TapState} {t : Bool} (hn : tapNext p t = n)
    (h : n = .reset ∨ n = .updateIR ∨ n = .updateDR) : p ≠ .captureDR ∧ p ≠ .shiftDR ∧ p ≠ .shiftIR := by
  have hp (hp : p = .captureDR ∨ p = .shiftDR ∨ p = .shiftIR) : False := by
    obtain ⟨hr, hi, hd⟩ := hn ▸ tapNext_of_state_action hp t
    tauto
  exact ⟨fun h => hp (.inl h), fun h => hp (.inr (.inl h)), fun h => hp (.inr (.inr h))⟩

theorem stateAction_observer_of_ne {p : TapState} (hd : p ≠ .shiftDR) (hi : p ≠ .shiftIR) (tdi tdo : Bool)
    (s : State) : stateAction .observer p tdi tdo s = s := by
  unfold stateAction
  split
  · rfl
  · contradiction
  · contradiction
  · rfl

theorem entryAction_of_ne {n : TapState} (hr : n ≠ .reset) (hi : n ≠ .updateIR) (hd : n ≠ .updateDR) (r : Role)
    (s : State) : entryAction r n s = s := by
  unfold entryAction
  split
  · contradiction
  · contradiction
  · contradiction
  · rfl

/-! ## Rows of an Observer -/

theorem stateAction_observer_samples (p : TapState) (tdi tdo : Bool) (s : State) :
    (stateAction .observer p tdi tdo s).obs.samples = s.obs.samples := by
  unfold stateAction
  split <;> rfl

theorem entryAction_observer_samples (n : TapState) (s : State) :
    (entryAction .observer n s).obs.samples = s.obs.samples := by
  unfold entryAction
  split
  · rfl
  · rfl
  · obtain ⟨c, es, h⟩ := updateDR_observer_frame s
    rw [h]
    rfl
  · rfl

/-- An Observer's step by its parts: the action of the state, the move with the action of the entry, then the sample
gone and the transition reported (43_tap_observer.md R166). `o` is the Observer but for those two and the move. -/
theorem observerTap_observed {s : State} {b : BusSample} {rest : List BusSample} {p n : TapState} {t : Bool}
    {o : Observer} (hs : s.obs.samples = b :: rest) (hn : tapNext p t = n) (ho : o.samples = s.obs.samples)
    (h : entryAction .observer n (moveTap .observer n (stateAction .observer p b.tdi b.tdo s)) =
      { s with obs := { o with tap := { o.tap with state := n } } }) :
    observerTap p t b s = observed s rest p n o := by
  rw [observerTap, tapStep, hn, h]
  simp only [State.emit, ho, hs, List.tail_cons]
  rfl

/-- The same for a step with an action of its entry, which comes after none of its state. -/
theorem observerTap_entered {s : State} {b : BusSample} {rest : List BusSample} {p n : TapState} {t : Bool}
    {o : Observer} (hs : s.obs.samples = b :: rest) (hn : tapNext p t = n)
    (he : n = .reset ∨ n = .updateIR ∨ n = .updateDR) (ho : o.samples = s.obs.samples)
    (h : entryAction .observer n (moveTap .observer n s) =
      { s with obs := { o with tap := { o.tap with state := n } } }) :
    observerTap p t b s = observed s rest p n o := by
  obtain ⟨-, hd, hi⟩ := ne_of_entry_action hn he
  exact observerTap_observed hs hn ho (by rw [stateAction_observer_of_ne hd hi, h])

/-- Settles O7: neither the state nor the entry has an action. -/
theorem observerRowsWithoutAction : Obligations.ObserverRowsWithoutAction := by
  intro s b rest i p n t hs h hpd hpi hnr hni hnd
  obtain ⟨hn, hexec⟩ := exec_observer_row hs h
  rw [hexec, observerTap_observed hs hn (o := s.obs) rfl]
  rw [stateAction_observer_of_ne hpd hpi, entryAction_of_ne hnr hni hnd]
  rfl

/-- Settles O8: the state alone has an action. -/
theorem observerShiftRows : Obligations.ObserverShiftRows := by
  intro s b rest i n t hs
  refine ⟨fun h => ?dr, fun h => ?ir⟩
  all_goals
    obtain ⟨hn, hexec⟩ := exec_observer_row hs h
    obtain ⟨hnr, hni, hnd⟩ := hn ▸ tapNext_of_state_action (by simp) t
    rw [hexec, observerTap_observed hs hn]
    · rfl
    · rw [entryAction_of_ne hnr hni hnd]
      rfl

/-- The entry to RESET in an Observer (40_tap.md R117, 43_tap_observer.md R174). -/
theorem observerTap_reset {s : State} {b : BusSample} {rest : List BusSample} {p : TapState} {t : Bool}
    (hs : s.obs.samples = b :: rest) (hn : tapNext p t = .reset) :
    observerTap p t b s = observed s rest p .reset { s.obs with
      tap := { s.obs.tap with ir := 0x3 }, pdi := aborted s.obs.pdi } :=
  observerTap_entered hs hn (.inl rfl) rfl rfl

/-- Settles O9: the entry to RESET. -/
theorem observerRowsIntoReset : Obligations.ObserverRowsIntoReset := by
  intro s b rest i p t hs h
  obtain ⟨hn, hexec⟩ := exec_observer_row hs h
  rw [hexec, observerTap_reset hs hn]

/-- Settles O10: the entry to UPDATE-IR. -/
theorem observerRowsIntoUpdateIr : Obligations.ObserverRowsIntoUpdateIr := by
  intro s b rest i p t hs h
  obtain ⟨hn, hexec⟩ := exec_observer_row hs h
  exact hexec.trans (congrArg Host.Outcome.next (observerTap_entered hs hn (.inr (.inl rfl)) rfl rfl))

/-! ### Entry to UPDATE-DR -/

theorem capturedDR_of_width {code : IrCode} (h : code ≠ 0x7) (s : State) :
    capturedDR code s = ⟨code, 32, s.obs.srTdi, s.obs.srTdo⟩ := by
  have hw : width code = 32 := if_neg h
  simp only [capturedDR, hw, extracted, Nat.sub_self, BitVec.ushiftRight_zero]

theorem updateDR_of_idcode {r : Role} {s : State} (h : (s.tapOf r).ir = 0x3) : updateDR r s = idcodeUpdate r s := by
  rw [updateDR, h]
  rfl

/-- BYPASS and the unnamed codes act alike on entry to UPDATE-DR (40_tap.md R127, R128). -/
theorem updateDR_of_other {r : Role} {s : State} (h3 : (s.tapOf r).ir ≠ 0x3) (h7 : (s.tapOf r).ir ≠ 0x7) :
    updateDR r s = otherUpdate r (s.tapOf r).ir s := by
  rcases decodeIr_cases (s.tapOf r).ir with ⟨h, -⟩ | ⟨h, -⟩ | ⟨h, -⟩ | ⟨-, -, hd⟩
  · contradiction
  · contradiction
  · rw [updateDR, h]
    rfl
  · simp only [updateDR, hd]

/-- Outside PDICOM the entry to UPDATE-DR emits the capture and delivers it whole (43_tap_observer.md R168, R169,
R171). -/
theorem updateDR_observer_of_ne {s : State} (h : s.obs.tap.ir ≠ 0x7) :
    updateDR .observer s = s.emit .observer [.capturedDR ⟨s.obs.tap.ir, 32, s.obs.srTdi, s.obs.srTdo⟩,
      if s.obs.tap.ir = 0x3 then .idCode s.obs.srTdo else .otherDR s.obs.tap.ir s.obs.srTdi s.obs.srTdo] := by
  have hc := capturedDR_of_width h s
  by_cases h3 : s.obs.tap.ir = 0x3
  · rw [h3] at hc
    rw [updateDR_of_idcode (r := .observer) h3, if_pos h3, h3]
    simp only [idcodeUpdate, emitCaptured, hc, State.emit, List.append_assoc, List.singleton_append]
  · rw [updateDR_of_other (r := .observer) h3 h, if_neg h3]
    simp only [otherUpdate, emitCaptured, tapOf_observer, hc, State.emit, List.append_assoc, List.singleton_append]

/-- Settles O11: the entry to UPDATE-DR under a code of 32 bits. -/
theorem observerRowsIntoUpdateDrOutsidePdicom : Obligations.ObserverRowsIntoUpdateDrOutsidePdicom := by
  intro s b rest i p t hs h hir
  obtain ⟨hn, hexec⟩ := exec_observer_row hs h
  refine hexec.trans (congrArg Host.Outcome.next (observerTap_entered hs hn (.inr (.inr rfl)) rfl ?_))
  exact updateDR_observer_of_ne (s := moveTap .observer .updateDR s) hir

/-- A named code is executed as what the code does on entry to UPDATE-DR (40_tap.md R121). -/
theorem exec_of_decodeIr {c : IrCode} {j : Instr} (hj : decodeIr c = .instr j) {s : State}
    (hc : (s.tapOf s.due).ir = c) : exec j s = .next (updateDR s.due s) := by
  rcases decodeIr_cases c with ⟨rfl, hd⟩ | ⟨rfl, hd⟩ | ⟨rfl, hd⟩ | ⟨-, -, hd⟩ <;> cases hd.symm.trans hj
  all_goals
    rw [updateDR, hc]
    rfl

theorem mem_tapRows_updateDR {i : Instr} {p : TapState}
    (h : (i, p) ∈ [(Instr.exit1DRTms1, TapState.exit1DR), (.exit2DRTms1, .exit2DR)]) :
    (i, p, true, TapState.updateDR) ∈ tapRows := by
  rcases List.mem_pair.mp h with h | h <;> cases h <;> decide

/-- Settles O6: the entry to UPDATE-DR is the latched instruction, executed after the move. -/
theorem updateDrRunsTheLatchedInstruction : Obligations.UpdateDrRunsTheLatchedInstruction := by
  intro s b rest j i p hs h hj
  obtain ⟨hn, hexec⟩ := exec_observer_row hs (mem_tapRows_updateDR h)
  have hdue : (moveTap .observer .updateDR s).due = .observer := due_of_samples_cons (b := b) (rest := rest) hs
  have hlatched := exec_of_decodeIr hj (s := moveTap .observer .updateDR s) (by rw [hdue]; rfl)
  rw [hdue] at hlatched
  refine ⟨_, hlatched, hexec.trans (congrArg Host.Outcome.next ?_)⟩
  have hrest : (updateDR .observer (moveTap .observer .updateDR s)).obs.samples.tail = rest :=
    congrArg List.tail ((entryAction_observer_samples .updateDR (moveTap .observer .updateDR s)).trans hs)
  obtain ⟨-, hd, hi⟩ := ne_of_entry_action hn (.inr (.inr rfl))
  rw [observerTap, tapStep, hn, stateAction_observer_of_ne hd hi, ← hrest]
  rfl

end Sys2Proof.Machine

/-! ## Rows of a Driver -/

namespace Sys2Proof.Machine

open Sys2Proof Sys2Proof.Spec

theorem drvTdi_eq_tdiBit (p : TapState) (s : State) : drvTdi p s = tdiBit s p := by
  cases p
  case shiftIR =>
    unfold drvTdi tdiBit State.currentPair
    cases (opSeq s.drv.op)[s.drv.idx]? <;> rfl
  all_goals rfl

/-- The sequencer after a bus step (42_tap_driver.md R146, R154). -/
theorem advance_eq (s : State) : advance s = { s with drv := { s.drv with
    op := if lastPairB s then .none else s.drv.op,
    idx := if lastPairB s then 0 else s.drv.idx + 1,
    complete := lastPairB s && s.drv.op.scans } } := by
  by_cases h : (opSeq s.drv.op).length ≤ s.drv.idx + 1
  · rw [advance_of_last h, lastPairB, decide_eq_true h]
    rfl
  · rw [advance_of_more (Nat.lt_of_not_le h), lastPairB, decide_eq_false h]
    rfl

theorem port_enter_state (n : TapState) (q : Port) : (q.enter n).tap.state = n := by cases n <;> rfl

/-- The end of a bus step on the registers it leaves: the three bits recorded, the transition reported, the sequencer
moved on (42_tap_driver.md R146). -/
theorem advance_recordBus_setPort {q : Port} {n : TapState} (hq : q.tap.state = n) (p : TapState) (t : Bool)
    (s : State) :
    advance (recordBus ⟨t, tdiBit s p, s.nextTdo⟩ ((s.setPort q).emit .driver [.stateTransition p n])) =
      driven s p n t (s.setPort q).drv := by
  subst hq
  exact advance_eq _

/-- A Driver's bus step by its parts: the action of the state and that of the entry on its registers, then the end of
the step. `d` is the Driver with the writes of the two actions, but for the move. -/
theorem driverTap_driven {s : State} {p n : TapState} {t : Bool} {d : Driver} (hn : tapNext p t = n)
    (h : (s.setPort ((s.drv.port.act p (tdiBit s p) s.nextTdo).enter n)).drv =
      { d with tap := { d.tap with state := n } }) :
    driverTap p t s = driven s p n t d := by
  have hmoved : driven s p n t { d with tap := { d.tap with state := n } } = driven s p n t d := rfl
  rw [driverTap, tapStep, stateAction_driver, entryAction_moveTap_driver, drvTdi_eq_tdiBit, hn, ← hmoved, ← h]
  exact advance_recordBus_setPort (port_enter_state n _) p t s

theorem port_act_of_ne {p : TapState} (hc : p ≠ .captureDR) (hd : p ≠ .shiftDR) (hi : p ≠ .shiftIR) (tdi tdo : Bool)
    (q : Port) : q.act p tdi tdo = q := by
  unfold Port.act
  split
  · contradiction
  · contradiction
  · contradiction
  · rfl

theorem port_enter_of_ne {n : TapState} (hr : n ≠ .reset) (hi : n ≠ .updateIR) (hd : n ≠ .updateDR) (q : Port) :
    q.enter n = { q with tap := { q.tap with state := n } } := by
  unfold Port.enter
  split
  · contradiction
  · contradiction
  · contradiction
  · rfl

theorem port_act_of_entry {p n : TapState} {t : Bool} (hn : tapNext p t = n)
    (h : n = .reset ∨ n = .updateIR ∨ n = .updateDR) (tdi tdo : Bool) (q : Port) : q.act p tdi tdo = q := by
  obtain ⟨hc, hd, hi⟩ := ne_of_entry_action hn h
  exact port_act_of_ne hc hd hi tdi tdo q

/-- Settles O15: neither the state nor the entry has an action. -/
theorem driverRowsWithoutAction : Obligations.DriverRowsWithoutAction := by
  intro s i p n t hs h hpc hpd hpi hnr hni hnd
  obtain ⟨hn, hexec⟩ := exec_driver_row hs h
  rw [hexec, driverTap_driven hn (d := s.drv)]
  rw [port_act_of_ne hpc hpd hpi, port_enter_of_ne hnr hni hnd]
  rfl

/-- Settles O16: the state alone has an action. -/
theorem driverCaptureAndShiftRows : Obligations.DriverCaptureAndShiftRows := by
  intro s i n t hs
  refine ⟨fun h => ?capture, fun h => ?shiftDR, fun h => ?shiftIR⟩
  all_goals
    obtain ⟨hn, hexec⟩ := exec_driver_row hs h
    obtain ⟨hnr, hni, hnd⟩ := hn ▸ tapNext_of_state_action (by simp) t
    rw [hexec, driverTap_driven hn]
    rw [port_enter_of_ne hnr hni hnd]
    rfl

/-- Settles O17: the entry alone has an action. -/
theorem driverRowsWithEntryAction : Obligations.DriverRowsWithEntryAction := by
  intro s i p t hs
  refine ⟨fun h => ?reset, fun h => ?updateIR, fun h => ?updateDR⟩
  all_goals
    obtain ⟨hn, hexec⟩ := exec_driver_row hs h
    rw [hexec, driverTap_driven hn]
    rw [port_act_of_entry hn (by simp)]
    rfl

/-! ## JTAG instructions in a Driver -/

theorem exec_irIdcode (s : State) : exec .irIdcode s = .next (idcodeUpdate s.due s) := rfl

theorem exec_irPdicom (s : State) : exec .irPdicom s = .next (pdicomUpdate s.due s) := rfl

theorem exec_irBypass (s : State) : exec .irBypass s = .next (bypassUpdate s.due s) := rfl

/-- Settles O26: the action of each code in a Driver. -/
theorem driverJtagInstructionsCommit : Obligations.DriverJtagInstructionsCommit := by
  intro s hs
  rw [exec_irIdcode, exec_irPdicom, exec_irBypass, due_of_samples_nil hs]
  exact ⟨rfl, rfl, rfl⟩

end Sys2Proof.Machine

/-! ## Five high decision bits -/

namespace Sys2Proof.Machine

open Sys2Proof Sys2Proof.Spec

/-- Some decision bits of 1 in a row (40_tap.md R124). -/
def highPairs (n : Nat) : List Pair := List.replicate n ⟨true, false⟩

theorem driveTap_five_high (st : TapState) : driveTap st (highPairs 5) = .reset := by cases st <;> rfl

/-- The least number of decision bits of 1 that lead to RESET, state by state (40_tap.md R124). -/
theorem least_high_to_reset : ∀ r ∈ [(TapState.reset, 0), (.selectIR, 1), (.selectDR, 2), (.idle, 3), (.updateDR, 3),
      (.updateIR, 3), (.exit1DR, 4), (.exit2DR, 4), (.exit1IR, 4), (.exit2IR, 4), (.captureDR, 5), (.shiftDR, 5),
      (.pauseDR, 5), (.captureIR, 5), (.shiftIR, 5), (.pauseIR, 5)],
    driveTap r.1 (highPairs r.2) = .reset ∧ ∀ j, j < r.2 → driveTap r.1 (highPairs j) ≠ .reset := by decide

/-- Settles O19: the trace by evaluation, the least numbers state by state. -/
theorem fiveHighStepsReachReset : Obligations.FiveHighStepsReachReset :=
  ⟨by decide, driveTap_five_high, fun st k h => least_high_to_reset (st, k) h⟩

/-! ### In an Observer -/

theorem tapStep_observer_samples (p : TapState) (tms tdi tdo : Bool) (s : State) :
    (tapStep .observer p tms tdi tdo s).obs.samples = s.obs.samples := by
  rw [tapStep, emit_observer_obs_samples, entryAction_observer_samples]
  exact stateAction_observer_samples p tdi tdo s

/-- A step on a sample moves the Observer's TAP as the table says and leaves the Driver alone (43_tap_observer.md
R166). -/
theorem step_sample_state {s : State} {b : BusSample} {rest : List BusSample} (hs : s.obs.samples = b :: rest) :
    ∃ t, step s = .next t ∧ t.obs.samples = rest ∧ t.obs.tap.state = tapNext s.obs.tap.state b.tms ∧
      t.drv = s.drv := by
  refine ⟨_, step_sample hs, ?samples, tapStep_state .observer _ _ _ _ s, observerTap_drv _ _ _ s⟩
  case samples => rw [observerTap_samples, tapStep_observer_samples, hs, List.tail_cons]

/-- Some samples with `tms` 1 in a row. -/
theorem runs_high_samples {bs rest : List BusSample} {s : State} (hs : s.obs.samples = bs ++ rest)
    (hb : ∀ b ∈ bs, b.tms = true) :
    ∃ t, runs bs.length s = .next t ∧ t.obs.samples = rest ∧
      t.obs.tap.state = driveTap s.obs.tap.state (highPairs bs.length) ∧ t.drv = s.drv := by
  induction bs generalizing s with
  | nil => exact ⟨s, rfl, hs, rfl, rfl⟩
  | cons b bs ih =>
    obtain ⟨hhigh, hb⟩ := List.forall_mem_cons.mp hb
    obtain ⟨u, hu, hsu, htu, hdu⟩ := step_sample_state hs
    obtain ⟨t, ht, hst, htt, hdt⟩ := ih hsu hb
    refine ⟨t, (runs_succ hu _).trans ht, hst, ?_, hdt.trans hdu⟩
    rw [htt, htu, hhigh]
    rfl

/-- Settles O20: after four samples the TAP stands one step before RESET, which the fifth enters. -/
theorem observerSynchronisesOnFiveHighSamples : Obligations.ObserverSynchronisesOnFiveHighSamples := by
  intro s b0 b1 b2 b3 b4 rest hs h0 h1 h2 h3 h4
  obtain ⟨u, hu, hsu, htu, hdu⟩ := runs_high_samples (bs := [b0, b1, b2, b3]) (rest := b4 :: rest) hs
    (by simp [h0, h1, h2, h3])
  have hreset : tapNext u.obs.tap.state b4.tms = .reset := by
    rw [htu, h4]
    exact driveTap_five_high s.obs.tap.state
  have hstep := step_sample hsu
  rw [observerTap_reset hsu hreset] at hstep
  exact ⟨_, (runs_add hu 1).trans (runs_succ hstep 0), rfl, rfl, rfl, rfl, rfl, rfl, rfl, hdu⟩

end Sys2Proof.Machine

/-! # Proofs about the shift registers (41_shift_register.md)

O38: bits shifted into a register. O46: the check of a unit is linear in its bits. O52: the unit a Driver sends, by
what an action makes of it. -/

/-! ## Shifting -/

namespace Sys2Proof.Machine

open Sys2Proof Sys2Proof.Spec

/-- What a register held moves down by the number of bits shifted in (41_shift_register.md R133). -/
theorem shifted_getLsbD_of_lt {bits : List Bool} (r : Word32) {k : Nat} (hk : k < 32 - bits.length) :
    (shifted bits r).getLsbD k = r.getLsbD (k + bits.length) := by
  induction bits generalizing r with
  | nil => rfl
  | cons b bits ih =>
    rw [List.length_cons] at hk ⊢
    have hdown : (shiftIn b r).getLsbD (k + bits.length) = r.getLsbD (k + bits.length + 1) := by
      rw [shiftIn_getLsbD, if_pos (by omega)]
    exact (ih (shiftIn b r) (by omega)).trans hdown

/-- Settles O38: the new bits by induction from the last one shifted in, the old ones from the first. -/
theorem shiftedBitsStandAtTheTopInOrder : Obligations.ShiftedBitsStandAtTheTopInOrder :=
  fun _ r h => ⟨fun _ => shifted_getLsbD r h, fun _ => shifted_getLsbD_of_lt r⟩

end Sys2Proof.Machine

/-! ## Units and parity -/

namespace Sys2Proof.Machine

open Sys2Proof Sys2Proof.Spec

@[simp] theorem unitData_unit9 (b : Byte) : unitData (unit9 b) = b := by
  rw [unitData, unit9, BitVec.extractLsb'_append_eq_right]

@[simp] theorem parityOk_unit9 (b : Byte) : parityOk (unit9 b) = true := by
  have htop : (unit9 b).getLsbD 8 = xor8 b := by
    rw [unit9, BitVec.getLsbD_append, if_neg (by decide), Nat.sub_self, BitVec.getLsbD_ofBool]
    rfl
  rw [parityOk, unitData_unit9, htop, beq_self_eq_true]

theorem parityOk_iff (u : Unit9) : parityOk u = true ↔ u.getLsbD 8 = xor8 (unitData u) := beq_iff_eq

theorem unitData_getLsbD (u : Unit9) {k : Nat} (hk : k < 8) : (unitData u).getLsbD k = u.getLsbD k := by
  rw [unitData, BitVec.getLsbD_extractLsb', decide_eq_true hk, Bool.true_and, Nat.zero_add]

/-- The XOR of a byte's bits, taken one after another (00_scope.md R7). -/
theorem xor8_eq_foldl (b : Byte) : xor8 b = ((List.range 8).map fun k => b.getLsbD k).foldl xor false := by
  have hrange : List.range 8 = [0, 1, 2, 3, 4, 5, 6, 7] := rfl
  simp only [xor8, hrange, List.map_cons, List.map_nil, List.foldl_cons, List.foldl_nil, Bool.false_xor]

/-- The check of a unit reads the XOR of its low eight bits (41_shift_register.md R136). -/
theorem xor8_unitData (u : Unit9) :
    xor8 (unitData u) = ((List.range 8).map fun k => u.getLsbD k).foldl xor false := by
  have hbits : (List.range 8).map (fun k => (unitData u).getLsbD k) = (List.range 8).map fun k => u.getLsbD k :=
    List.map_congr_left fun k hk => unitData_getLsbD u (List.mem_range.mp hk)
  rw [xor8_eq_foldl, hbits]

/-- A unit checks when the XOR of its nine bits is 0. -/
theorem parityOk_eq_foldl (u : Unit9) : parityOk u = !((List.range 9).map fun k => u.getLsbD k).foldl xor false := by
  have hlast : ((List.range 9).map fun k => u.getLsbD k).foldl xor false = (xor8 (unitData u) ^^ u.getLsbD 8) := by
    rw [xor8_unitData, List.range_succ, List.map_append, List.foldl_append]
    rfl
  rw [hlast, parityOk, Bool.xor_comm]
  exact (Bool.not_not _).symm

theorem foldl_xor_xor (f g : Nat → Bool) (ks : List Nat) (p q : Bool) :
    (ks.map fun k => f k ^^ g k).foldl xor (p ^^ q) = ((ks.map f).foldl xor p ^^ (ks.map g).foldl xor q) := by
  have hswap : ∀ a b c d : Bool, ((a ^^ b) ^^ (c ^^ d)) = ((a ^^ c) ^^ (b ^^ d)) := by decide
  induction ks generalizing p q with
  | nil => rfl
  | cons k ks ih => rw [List.map_cons, List.map_cons, List.map_cons, List.foldl_cons, hswap, ih]; rfl

/-- The check is linear: the XOR of two units checks when both do or neither does. -/
theorem parityOk_xor (u v : Unit9) : parityOk (u ^^^ v) = !(parityOk u ^^ parityOk v) := by
  have hfold := foldl_xor_xor (fun k => u.getLsbD k) (fun k => v.getLsbD k) (List.range 9) false false
  simp only [parityOk_eq_foldl, BitVec.getLsbD_xor]
  rw [Bool.xor_false] at hfold
  rw [hfold, Bool.not_xor_not]

/-- A unit with one bit set does not check. -/
theorem parityOk_bit : ∀ k < 9, parityOk (1#9 <<< k) = false := by decide

theorem parityOk_flip (u : Unit9) {k : Nat} (hk : k < 9) : parityOk (u ^^^ 1#9 <<< k) = !parityOk u := by
  rw [parityOk_xor, parityOk_bit k hk, Bool.xor_false]

/-- Settles O46: each flipped bit turns the verdict over. -/
theorem parityDetectsEverySingleBitFlip : Obligations.ParityDetectsEverySingleBitFlip := by
  refine ⟨fun b => ⟨?_, parityOk_unit9 b, unitData_unit9 b⟩, fun u => ⟨rfl, ?_, ?_⟩, ?_, ?_⟩
  · rw [unit9, xor8_eq_foldl]
  · rw [parityOk_iff, xor8_unitData]
  · rw [parityOk_eq_foldl, Bool.not_eq_true']
  · intro u k hk h
    rw [parityOk_flip u hk, h, Bool.not_true]
  · intro u j k hj hk _ h
    rw [parityOk_flip _ hk, parityOk_flip u hj, h, Bool.not_not]

end Sys2Proof.Machine

/-! ## The unit a Driver sends -/

namespace Sys2Proof.Machine

open Sys2Proof

/-- What an action makes of the unit being sent: it keeps the unit and begins no PDICOM transfer, or the unit is a good
one (42_tap_driver.md R152, 41_shift_register.md R135). -/
inductive SendsGood (s t : State) : Prop
  | kept (unit : t.drv.pdiOut = s.drv.pdiOut) (op : t.drv.op = .pdiTransfer → s.drv.op = .pdiTransfer)
  | good (unit : parityOk t.drv.pdiOut = true)

theorem SendsGood.refl (s : State) : SendsGood s s := .kept rfl id

theorem SendsGood.trans {s t u : State} (h : SendsGood s t) (k : SendsGood t u) : SendsGood s u := by
  cases k with
  | good hu => exact .good hu
  | kept hunit hop =>
    cases h with
    | good ht => exact .good (hunit ▸ ht)
    | kept hunit' hop' => exact .kept (hunit.trans hunit') (hop' ∘ hop)

/-! ### Bus steps -/

theorem advance_sendsGood (s : State) : SendsGood s (advance s) := by
  unfold advance
  split
  · exact .kept rfl nofun
  · exact .kept rfl id

theorem driverTap_sendsGood (p : TapState) (tms : Bool) (s : State) : SendsGood s (driverTap p tms s) := by
  obtain ⟨t, sr, u, id', bus, td, ev, h⟩ := driverTap_frame p tms s
  rw [h]
  refine .trans ?_ (advance_sendsGood _)
  exact .kept rfl id

/-! ### Actions between two operations -/

theorem hostRead_sendsGood (s : State) : SendsGood s s.hostRead := by
  obtain ⟨o, l, h⟩ := hostRead_frame s
  rw [h]
  exact .kept rfl id

theorem headerEffect_sendsGood (b : Byte) (s : State) : SendsGood s (headerEffect b s) := by
  unfold headerEffect
  split_ifs
  · exact .kept rfl nofun
  · exact .kept rfl nofun
  · exact .kept rfl id
  · exact .kept rfl id

/-- An opcode byte goes out as a packed unit (45_command_adapter.md R225). -/
theorem acceptByte_sendsGood (b : Byte) (s : State) : SendsGood s (acceptByte .driver b s) := by
  obtain ⟨byte, o, x, y, w, n, -, -, heq⟩ := acceptByte_cases b
  rw [heq]
  exact .good (parityOk_unit9 byte)

theorem loopTest_sendsGood (s : State) : SendsGood s (loopTest s) := by
  unfold loopTest
  split <;> exact .kept rfl id

theorem writeSlot_sendsGood (u : Unit9) (s : State) : SendsGood s (writeSlot .driver u s) := by
  rw [writeSlot_driver]
  split <;> exact .kept rfl id

theorem readSlot_sendsGood (u : Unit9) (s : State) : SendsGood s (readSlot .driver u s) := by
  rw [readSlot_driver]
  split <;> exact .kept rfl id

theorem handOver_sendsGood (s : State) : SendsGood s (handOver s) := .kept rfl id

theorem finishWrite_sendsGood (s : State) : SendsGood s (finishWrite s) :=
  ((handOver_sendsGood s).trans (writeSlot_sendsGood _ _)).trans (loopTest_sendsGood _)

theorem finishRead_sendsGood (s : State) : SendsGood s (finishRead s) := by
  by_cases h : parityOk s.drv.pdiIn = true
  · rw [finishRead_of_good h]
    exact ((handOver_sendsGood s).trans (readSlot_sendsGood _ _)).trans (loopTest_sendsGood _)
  · rw [finishRead_of_bad h]
    exact .kept rfl id

theorem startWrite_sendsGood (s : State) : SendsGood s (startWrite s) := by
  unfold startWrite
  split
  · exact .refl s
  · exact .good (parityOk_unit9 _)

/-- A read slot sends the packed fill (42_tap_driver.md R153). -/
theorem startRead_sendsGood (s : State) : SendsGood s (startRead s) := .good (parityOk_unit9 Config.pdiReadFill)

theorem nextSlotAction_sendsGood (s : State) : SendsGood s (nextSlotAction s) := by
  unfold nextSlotAction
  split
  · exact .kept rfl id
  · split
    · exact startWrite_sendsGood s
    · exact startRead_sendsGood s
    · exact .refl s

theorem adapterRun_sendsGood (s : State) : SendsGood s (adapterRun s) := by
  unfold adapterRun
  split
  · exact .kept rfl id
  · exact .kept rfl id
  · exact handOver_sendsGood s
  · exact finishWrite_sendsGood s
  · exact finishRead_sendsGood s
  · exact nextSlotAction_sendsGood s

/-! ### The step -/

theorem step_sendsGood {s t : State} (hst : step s = .next t) : SendsGood s t := by
  rcases step_cases s with ⟨b, rest, -, hs⟩ | ⟨-, hs⟩
  · obtain rfl := Host.Outcome.next.inj (hs.symm.trans hst)
    have hdrv := observerTap_drv s.obs.tap.state b.tms b s
    exact .kept (congrArg Driver.pdiOut hdrv) (congrArg Driver.op hdrv).symm.trans
  · rcases hs with ⟨-, p, -, hs⟩ | ⟨-, -, hs⟩ | ⟨-, -, -, hs⟩ | ⟨-, -, b, -, hs⟩ | ⟨-, -, b, -, hs⟩ | ⟨-, -, hs⟩
    all_goals obtain rfl := Host.Outcome.next.inj (hs.symm.trans hst)
    · exact driverTap_sendsGood _ _ s
    · exact advance_sendsGood s
    · exact .refl s
    · exact (hostRead_sendsGood s).trans (headerEffect_sendsGood b _)
    · exact (hostRead_sendsGood s).trans (acceptByte_sendsGood b _)
    · exact adapterRun_sendsGood s

/-- Settles O52: a step that keeps the unit begins no transfer, and every unit written is a packed byte. -/
theorem sentUnitsHaveGoodParity : Obligations.SentUnitsHaveGoodParity := by
  intro s t hst
  cases step_sendsGood hst with
  | good hgood => exact ⟨fun _ _ => hgood, fun _ _ => hgood, fun _ => hgood⟩
  | kept hunit hop =>
    rw [hunit]
    exact ⟨fun h ho => h (hop ho), fun hne ho => absurd (hop ho) hne, id⟩

end Sys2Proof.Machine

/-! # Proofs about the Driver's sequences (42_tap_driver.md)

O18: the sequences as tables. O28, O50 and O30: what begins a sequence. O35: the Reset command. O56 and O57: an Observer
fed a Driver's triples, first by its TAP core, then by the registers and the codec that a sample works on. -/

/-! ## The sequences as tables -/

namespace Sys2Proof.Machine

open Sys2Proof Sys2Proof.Spec

/-! ### The data scan pair by pair (42_tap_driver.md R149) -/

theorem drScan_length {w : Nat} (hw : 1 ≤ w) : (drScan w).length = w + 5 := by
  simp [drScan]
  omega

theorem drScan_tms (w : Nat) :
    (drScan w).map Pair.tms = [true, false, false] ++ List.replicate (w - 1) false ++ [true, true, false] := by
  simp [drScan]

/-- After the three pairs that lead to SHIFT-DR: all shifts but the last, the one that leaves, two to IDLE. -/
theorem drScan_getElem?_add_three (w k : Nat) : (drScan w)[k + 3]? =
    (List.replicate (w - 1) (⟨false, false⟩ : Pair) ++ [⟨true, false⟩, ⟨true, false⟩, ⟨false, false⟩])[k]? := rfl

theorem drScan_getElem?_shift {w k : Nat} (h : k + 1 < w) : (drScan w)[k + 3]? = some ⟨false, false⟩ := by
  rw [drScan_getElem?_add_three, List.getElem?_append_left (by rw [List.length_replicate]; omega),
    List.getElem?_replicate_of_lt (by omega)]

/-- The last three pairs of a data scan. -/
theorem drScan_getElem?_tail {w : Nat} (hw : 1 ≤ w) (k : Nat) :
    (drScan w)[w + 2 + k]? = [(⟨true, false⟩ : Pair), ⟨true, false⟩, ⟨false, false⟩][k]? := by
  obtain ⟨n, rfl⟩ := Nat.exists_eq_add_of_le' hw
  rw [show n + 1 + 2 + k = (n + k) + 3 by omega, drScan_getElem?_add_three, Nat.add_sub_cancel,
    List.getElem?_append_right (by rw [List.length_replicate]; omega), List.length_replicate, Nat.add_sub_cancel_left]

theorem driveTap_drScan_lead {st : TapState} (h : st = .idle ∨ st = .updateIR) (w : Nat) :
    driveTap st ((drScan w).take 1) = .selectDR ∧ driveTap st ((drScan w).take 2) = .captureDR ∧
    driveTap st ((drScan w).take 3) = .shiftDR := by
  rcases h with rfl | rfl <;> exact ⟨rfl, rfl, rfl⟩

/-- The scan stays in SHIFT-DR for `w` steps. -/
theorem driveTap_drScan_shift {st : TapState} (h : st = .idle ∨ st = .updateIR) {w k : Nat} (hk : k + 1 ≤ w) :
    driveTap st ((drScan w).take (k + 3)) = .shiftDR := by
  induction k with
  | zero => exact (driveTap_drScan_lead h w).2.2
  | succ k ih =>
    rw [Nat.succ_add, driveTap_take_succ (drScan_getElem?_shift hk), ih (by omega)]
    rfl

/-- The three last pairs lead from SHIFT-DR by EXIT1-DR and UPDATE-DR to IDLE. -/
theorem driveTap_drScan_tail {st : TapState} (h : st = .idle ∨ st = .updateIR) {w : Nat} (hw : 1 ≤ w) :
    driveTap st ((drScan w).take (w + 3)) = .exit1DR ∧ driveTap st ((drScan w).take (w + 4)) = .updateDR ∧
    driveTap st (drScan w) = .idle := by
  have hshift : driveTap st ((drScan w).take (w + 2)) = .shiftDR := by
    rw [show w + 2 = (w - 1) + 3 by omega]
    exact driveTap_drScan_shift h (by omega)
  have hexit : driveTap st ((drScan w).take (w + 3)) = .exit1DR := by
    rw [driveTap_take_succ (drScan_getElem?_tail hw 0), hshift]
    rfl
  have hupdate : driveTap st ((drScan w).take (w + 4)) = .updateDR := by
    rw [driveTap_take_succ (drScan_getElem?_tail hw 1), hexit]
    rfl
  refine ⟨hexit, hupdate, ?_⟩
  rw [← List.take_of_length_le (drScan_length hw).le, driveTap_take_succ (drScan_getElem?_tail hw 2), hupdate]
  rfl

/-- The states an instruction scan passes, whatever the code (42_tap_driver.md R148). -/
theorem driveTap_irScan (c : IrCode) : (List.range 10).map (fun k => driveTap .idle ((irScan c).take k)) =
    [.idle, .selectDR, .selectIR, .captureIR, .shiftIR, .shiftIR, .shiftIR, .shiftIR, .exit1IR, .updateIR] := rfl

/-- Settles O18: the instruction scan and the Reset sequence by evaluation, the data scan of every width by its pairs. -/
theorem driverSequencesAreTheTables : Obligations.DriverSequencesAreTheTables := by
  refine ⟨fun c => ⟨rfl, rfl, driveTap_irScan c⟩, fun w st hw hst => ?data, rfl, by decide, driveTap_resetSeq, rfl, rfl,
    rfl⟩
  case data =>
    obtain ⟨hselect, hcapture, -⟩ := driveTap_drScan_lead hst w
    refine ⟨drScan_length hw, drScan_tms w, hselect, hcapture, fun k hk hkw => ?_, driveTap_drScan_tail hst hw⟩
    obtain ⟨j, rfl⟩ := Nat.exists_eq_add_of_le' hk
    exact driveTap_drScan_shift hst (by omega)

end Sys2Proof.Machine

/-! ## The host headers and the start of a slot -/

namespace Sys2Proof.Machine

open Sys2Proof Sys2Proof.Spec

theorem exec_hdrReset (s : State) : exec .hdrReset s = .next (doReset s) := rfl

theorem exec_hdrIdCode (s : State) : exec .hdrIdCode s = .next (doIdCode s) := rfl

theorem exec_hdrPdi (s : State) : exec .hdrPdi s = .next (doPdi s) := rfl

theorem exec_hdrError (s : State) : exec .hdrError s = .next (skipHeader s) := rfl

/-- Settles O28: each header is one adapter action. -/
theorem headersBeginTheirCommands : Obligations.HeadersBeginTheirCommands := by
  intro s
  rw [exec_hdrReset, exec_hdrIdCode, exec_hdrPdi, exec_hdrError]
  exact ⟨rfl, rfl, rfl, rfl⟩

/-- A Reset that begins stands before the first pair, which may be driven in any TAP state (42_tap_driver.md R147). -/
theorem doReset_aligned (s : State) : (doReset s).drv.Aligned :=
  (aligned_iff_of_reset rfl).mpr ⟨⟨Nat.zero_lt_succ _, s.drv.tap.state, rfl⟩, nofun⟩

/-- Settles O50: a Reset sequence asks nothing of where it begins. -/
theorem resetHeaderAlignsTheDriver : Obligations.ResetHeaderAlignsTheDriver :=
  fun s => ⟨doReset s, exec_hdrReset s, doReset_aligned s⟩

theorem adapterRun_of_loop {s : State} (ht : s.drv.task = .none) : adapterRun s = nextSlotAction s := by
  rw [adapterRun, ht]

theorem nextSlotAction_of_write {s : State} (hn : s.drv.pdi.opcode ≠ 0xF) (hw : 0 < s.drv.pdi.writeRemaining) :
    nextSlotAction s = startWrite s := by
  rw [nextSlotAction, if_neg hn, Codec.nextSlot, if_pos hw]

theorem nextSlotAction_of_read {s : State} (hn : s.drv.pdi.opcode ≠ 0xF) (hw : s.drv.pdi.writeRemaining = 0)
    (hr : 0 < s.drv.pdi.readRemaining) : nextSlotAction s = startRead s := by
  rw [nextSlotAction, if_neg hn, Codec.nextSlot, if_neg (Nat.not_lt.mpr hw.le), if_pos hr]

theorem unit9_pdiReadFill : unit9 Config.pdiReadFill = 0x000 := by decide

/-- Settles O30: the loop of DoPdi takes a byte for a write slot only. -/
theorem adapterStartsTheDueSlot : Obligations.AdapterStartsTheDueSlot := by
  intro s ⟨hs, ho, ha, hb⟩ ht hn
  have hstep : step s = .next (nextSlotAction s) := by rw [step_run hs ho ha, adapterRun_of_loop ht]
  refine ⟨fun d rest hw hin => ?write, fun hw hr => ?read⟩
  case write =>
    rw [hstep, nextSlotAction_of_write hn hw, startWrite_of_cons hb hin, ← ha, ← hb]
    rfl
  case read =>
    rw [hstep, nextSlotAction_of_read hn hw hr, startRead, ← unit9_pdiReadFill]
    rfl

end Sys2Proof.Machine

/-! ## A whole operation, whatever the target answers -/

namespace Sys2Proof.Machine

open Sys2Proof Sys2Proof.Spec

/-- The bus triples of some pairs, with the bits sent and the target's answers (20_memory.md R42). -/
def samplesOf (xs : List Pair) (sent answers : List Bool) : List BusSample :=
  xs.zipWith (fun x d => ⟨x.tms, d.1, d.2⟩) (sent.zip answers)

theorem samplesOf_append {xs ys : List Pair} {sent sent' answers answers' : List Bool} (hs : sent.length = xs.length)
    (ha : answers.length = xs.length) :
    samplesOf (xs ++ ys) (sent ++ sent') (answers ++ answers') =
      samplesOf xs sent answers ++ samplesOf ys sent' answers' := by
  rw [samplesOf, List.zip_append (hs.trans ha.symm),
    List.zipWith_append (by rw [List.length_zip, hs, ha, Nat.min_self])]
  rfl

theorem samplesOf_length {xs : List Pair} {sent answers : List Bool} (hs : sent.length = xs.length)
    (ha : answers.length = xs.length) : (samplesOf xs sent answers).length = xs.length := by
  rw [samplesOf, List.length_zipWith, List.length_zip, hs, ha, Nat.min_self, Nat.min_self]

theorem samplesOf_tms {xs : List Pair} {sent answers : List Bool} (hs : sent.length = xs.length)
    (ha : answers.length = xs.length) : (samplesOf xs sent answers).map BusSample.tms = xs.map Pair.tms := by
  refine List.ext_getElem ?_ fun k _ _ => ?_
  · rw [List.length_map, List.length_map, samplesOf_length hs ha]
  · simp [samplesOf]

theorem Port.run_sent_length {xs : List Pair} {bs : List Bool} (q : Port) (h : bs.length = xs.length) :
    (q.run xs bs).2.length = xs.length := by
  induction xs generalizing q bs with
  | nil => cases bs <;> rfl
  | cons x xs ih =>
    obtain ⟨b, bs, rfl⟩ := List.exists_cons_of_length_eq_add_one h
    exact congrArg (· + 1) (ih _ (Nat.succ.inj h))

/-- From `s` to `t` the pairs `xs` were driven on the bus and answered by `bits`: the registers are those of the run,
its triples are recorded, the host's side is as it was. -/
structure Transmits (s t : State) (xs : List Pair) (bits : List Bool) : Prop where
  host : HostUntouched s t
  answers : bits.length = xs.length
  port : t.drv.port = (s.drv.port.run xs bits).1
  bus : t.drv.bus = s.drv.bus ++ samplesOf xs (s.drv.port.run xs bits).2 bits

/-- A Driver's bus step on the pair that is due, with whatever the target answers. -/
theorem driverTap_busStepped {s : State} {x : Pair} (h : s.currentPair = some x) :
    driverTap s.drv.tap.state x.tms s = advance (busStepped x s.nextTdo s) := by
  rw [driverTap, drvTdi_of_currentPair h, tapStep_driver]
  rfl

theorem advance_busStepped_transmits (x : Pair) (b : Bool) (s : State) :
    Transmits s (advance (busStepped x b s)) [x] [b] where
  host := (busStepped_hostUntouched x b s).trans (advance_hostUntouched _)
  answers := rfl
  port := advance_port _
  bus := advance_bus _

theorem Transmits.cons {s u t : State} {x : Pair} {xs : List Pair} {b : Bool} {bits : List Bool}
    (h : Transmits s u [x] [b]) (k : Transmits u t xs bits) : Transmits s t (x :: xs) (b :: bits) := by
  have hport : u.drv.port = s.drv.port.step x b := h.port
  refine ⟨h.host.trans k.host, congrArg (· + 1) k.answers, ?_, ?_⟩
  · rw [k.port, hport]
    rfl
  · rw [k.bus, h.bus, hport, List.append_assoc]
    rfl

theorem Transmits.refl (s : State) : Transmits s s [] [] :=
  ⟨⟨rfl, rfl, rfl, rfl, rfl, rfl, rfl, rfl, rfl⟩, rfl, rfl, (List.append_nil _).symm⟩

/-- The sequencer leaves the pairs after the first; after the last pair the operation is over. -/
theorem advance_pairsLeft {s : State} {x : Pair} {xs : List Pair} (h : s.pairsLeft = x :: xs) :
    (advance s).pairsLeft = xs ∧ (xs = [] → (advance s).drv.op = .none) := by
  have hcount := pairsLeft_length s
  rw [h, List.length_cons] at hcount
  cases xs with
  | nil =>
    rw [List.length_nil] at hcount
    rw [advance_of_last (by omega)]
    exact ⟨rfl, fun _ => rfl⟩
  | cons y ys =>
    rw [List.length_cons] at hcount
    rw [advance_of_more (by omega)]
    exact ⟨(List.tail_drop ..).symm.trans (congrArg List.tail h), nofun⟩

/-- The rest of an operation's sequence takes one bus step for each pair; then no operation runs. -/
theorem runs_transmits {xs : List Pair} {s : State} (hs : s.obs.samples = []) (hp : s.pairsLeft = xs)
    (hend : xs = [] → s.drv.op = .none) :
    ∃ t bits, runs xs.length s = .next t ∧ t.drv.op = .none ∧ Transmits s t xs bits := by
  induction xs generalizing s with
  | nil => exact ⟨s, [], rfl, hend rfl, .refl s⟩
  | cons x xs ih =>
    have hc := currentPair_of_pairsLeft hp
    have hstep : step s = .next (advance (busStepped x s.nextTdo s)) := by
      rw [step_pair hs (op_ne_none_of_pairsLeft hp) hc, driverTap_busStepped hc]
    have hone := advance_busStepped_transmits x s.nextTdo s
    obtain ⟨hleft, hlast⟩ := advance_pairsLeft (s := busStepped x s.nextTdo s) hp
    obtain ⟨t, bits, hrun, ho, hrest⟩ := ih (hone.host.obs ▸ hs) hleft hlast
    exact ⟨t, _, (runs_succ hstep _).trans hrun, ho, hone.cons hrest⟩

end Sys2Proof.Machine

/-! ## The Reset command -/

namespace Sys2Proof.Machine

open Sys2Proof Sys2Proof.Spec

/-- The Reset sequence ends in IDLE with IDCODE latched, wherever it begins (42_tap_driver.md R147). -/
theorem Port.run_resetSeq_tap (q : Port) {bits : List Bool} (hlen : bits.length = resetSeq.length) :
    (q.run resetSeq bits).1.tap.state = .idle ∧ (q.run resetSeq bits).1.tap.ir = 0x3 := by
  obtain ⟨⟨st, ir, irNext⟩, sr, pdiOut, pdiIn, idcode⟩ := q
  match bits, hlen with
  | [_, _, _, _, _, _], _ => cases st <;> exact ⟨rfl, rfl⟩

/-- From the two states of rest it passes no capture, shift or update (70_reset_and_hazards.md R281). -/
theorem Port.run_resetSeq_of_rest {q : Port} (h : q.tap.state = .idle ∨ q.tap.state = .reset) {bits : List Bool}
    (hlen : bits.length = resetSeq.length) :
    (q.run resetSeq bits).1 = { q with tap := ⟨.idle, 0x3, q.tap.irNext⟩ } := by
  obtain ⟨⟨st, ir, irNext⟩, sr, pdiOut, pdiIn, idcode⟩ := q
  match bits, hlen with
  | [_, _, _, _, _, _], _ => obtain rfl | rfl : st = .idle ∨ st = .reset := h <;> rfl

/-- A Driver that has taken the header of `Reset` (45_command_adapter.md R222). -/
def resetBegun (rest : List Byte) (s : State) : State :=
  { s with drv := { s.drv with
      adState := .run, inBuf := none, hostIn := rest, pdi := s.drv.pdi.abort, op := .reset, idx := 0,
      task := .finishReset } }

theorem step_resetHeader {s : State} {rest : List Byte} (h : atRest s .awaitHeader)
    (hin : s.drv.hostIn = 0x1E :: rest) : step s = .next (resetBegun rest s) := by
  obtain ⟨hs, ho, ha, hb⟩ := h
  have hread := hostRead_of_cons hb hin
  rw [step_header hs ho ha (congrArg (·.drv.inBuf) hread), hread]
  rfl

theorem step_finishReset {s : State} (hs : s.obs.samples = []) (ho : s.drv.op = .none) (ha : s.drv.adState = .run)
    (ht : s.drv.task = .finishReset) : step s = .next (finishReset s) := by
  rw [step_run hs ho ha, adapterRun, ht]

/-- Settles O35: the header, the six bus steps, the response. -/
theorem resetCommandResynchronises : Obligations.ResetCommandResynchronises := by
  intro s rest hrest hin
  obtain ⟨t, bits, hrun, ho, hbus⟩ := runs_transmits (s := resetBegun rest s) (xs := resetSeq) hrest.1 rfl nofun
  have hfinish := step_finishReset (hbus.host.obs ▸ hrest.1) ho hbus.host.adState hbus.host.task
  have hrun8 : runs 8 s = .next (finishReset t) :=
    (runs_succ (step_resetHeader hrest hin) 7).trans ((runs_add hrun 1).trans (runs_succ hfinish 0))
  obtain ⟨hstate, hir⟩ := (resetBegun rest s).drv.port.run_resetSeq_tap hbus.answers
  rw [← hbus.port] at hstate hir
  refine ⟨_, hrun8, hstate, hir, hbus.host.pdi, rfl, hbus.host.inBuf, ho, rfl, hbus.host.hostIn, ?response,
    hbus.host.faults, hbus.host.pdiOut, ?tms, hbus.host.obs, fun hst => ?registers⟩
  case response => exact congrArg (· ++ [0x01]) hbus.host.hostOut
  case tms =>
    change t.drv.bus.map BusSample.tms = _
    rw [hbus.bus, List.map_append, samplesOf_tms (Port.run_sent_length _ hbus.answers) hbus.answers]
    rfl
  case registers =>
    have hport := hbus.port.trans (Port.run_resetSeq_of_rest hst hbus.answers)
    exact ⟨congrArg (·.tap.irNext) hport, congrArg Port.sr hport, congrArg Port.pdiIn hport,
      congrArg Port.idcode hport⟩

end Sys2Proof.Machine

/-! ## An Observer follows a Driver -/

namespace Sys2Proof.Machine

open Sys2Proof Sys2Proof.Spec

/-! ### The codec of an Observer on the two units of a scan -/

/-- Accepting a raw byte is `Accept` of that very byte with an opcode and loads that depend on it alone. -/
theorem acceptByte_eq_acceptOpcode (b : Byte) : ∃ (o : BitVec 4) (x y w n : Nat),
    ∀ (r : Role) (s : State), acceptByte r b s = acceptOpcode r b o x y w n s := by
  obtain ⟨byte, o, x, y, w, n, -, -, heq⟩ := acceptByte_cases b
  have hword : byteOf (decodeOpcode b) = b := congrArg CodeWord.word (encode_decodeOpcode b).2
  have hsent : (acceptByte .driver b State.reset).drv.pdiOut = unit9 (byteOf (decodeOpcode b)) := by
    have hd : decodeOpcode b = _ := decodeOpcode.eq_def b
    split at hd <;> rw [acceptByte, hd] <;> rfl
  have hbyte : byte = b := by
    rw [heq, hword] at hsent
    have hdata := congrArg unitData hsent
    rwa [unitData_unit9, show (acceptOpcode .driver byte o x y w n State.reset).drv.pdiOut = unit9 byte from rfl,
      unitData_unit9] at hdata
  exact ⟨o, x, y, w, n, hbyte ▸ heq⟩

/-- The codec after `Accept` of a raw byte (44_pdi_codec.md R183). -/
def Codec.acceptByte (b : Byte) (c : Codec) : Codec :=
  (Machine.acceptByte .observer b (State.reset.setCodec .observer c)).obs.pdi

/-- Both roles accept alike. -/
theorem acceptByte_codecOf (r : Role) (b : Byte) (s : State) :
    (acceptByte r b s).codecOf r = (s.codecOf r).acceptByte b := by
  obtain ⟨o, x, y, w, n, heq⟩ := acceptByte_eq_acceptOpcode b
  rw [Codec.acceptByte, heq, heq]
  cases r <;> rfl

/-- The codec after a write slot on a unit: the dispatch, then `WriteSlot` (44_pdi_codec.md R193, R201). -/
def Codec.takeWrite (u : Unit9) (c : Codec) : Codec :=
  if c.opcode.toNat < 8 then (c.writeSlot (unitData u)).1 else c.abort

/-- The codec after a read slot on a unit: the dispatch, then `ReadSlot` (44_pdi_codec.md R194, R201). -/
def Codec.takeRead (u : Unit9) (c : Codec) : Codec :=
  if c.opcode.toNat < 8 then (c.readSlot (unitData u)).1 else c.abort

theorem writeSlot_codecOf (r : Role) (u : Unit9) (s : State) :
    (writeSlot r u s).codecOf r = (s.codecOf r).takeWrite u := by
  by_cases h : (s.codecOf r).opcode.toNat < 8
  · rw [writeSlot, Codec.dispatchOk, decide_eq_true h, Codec.takeWrite, if_pos h]
    cases r <;> rfl
  · rw [writeSlot, Codec.dispatchOk, decide_eq_false h, Codec.takeWrite, if_neg h]
    exact raise_codecOf r _ u s

theorem readSlot_codecOf (r : Role) (u : Unit9) (s : State) :
    (readSlot r u s).codecOf r = (s.codecOf r).takeRead u := by
  by_cases h : (s.codecOf r).opcode.toNat < 8
  · rw [readSlot, Codec.dispatchOk, decide_eq_true h, Codec.takeRead, if_pos h]
    cases r <;> rfl
  · rw [readSlot, Codec.dispatchOk, decide_eq_false h, Codec.takeRead, if_neg h]
    exact raise_codecOf r _ u s

/-- The codec after the two units of a PDICOM scan: `u` went out, `v` came back (44_pdi_codec.md R204). -/
def Codec.observe (u v : Unit9) (c : Codec) : Codec :=
  if c.opcode = 0xF then
    if parityOk u then c.acceptByte (unitData u) else c.abort
  else if 0 < c.writeRemaining then
    if parityOk u then c.takeWrite u else c.abort
  else
    if parityOk v then c.takeRead v else c.abort

theorem observeUnit_codec (u v : Unit9) (s : State) : (observeUnit u v s).obs.pdi = s.obs.pdi.observe u v := by
  unfold observeUnit Codec.observe
  split_ifs
  · exact acceptByte_codecOf .observer (unitData u) s
  · rfl
  · exact writeSlot_codecOf .observer u s
  · rfl
  · exact readSlot_codecOf .observer v s
  · rfl

/-! ### What a sample works on -/

/-- The part of an Observer that a sample reads or writes, its events aside: the TAP core, the two capture registers and
the codec. -/
structure Probe where
  tap : Tap
  srTdi : Word32
  srTdo : Word32
  pdi : Codec

/-- The registers as an Observer holds them. -/
def Observer.probe (o : Observer) : Probe := ⟨o.tap, o.srTdi, o.srTdo, o.pdi⟩

/-- The action of the state a sample is taken in (40_tap.md R119, 43_tap_observer.md R167). -/
def Probe.act (p : TapState) (tdi tdo : Bool) (q : Probe) : Probe :=
  match p with
  | .shiftDR => { q with srTdi := shiftIn tdi q.srTdi, srTdo := shiftIn tdo q.srTdo }
  | .shiftIR => { q with tap := { q.tap with irNext := shiftInIr tdi q.tap.irNext } }
  | _ => q

/-- The move to a state and the action of its entry (40_tap.md R117, R120; 43_tap_observer.md R170, R174). -/
def Probe.enter (n : TapState) (q : Probe) : Probe :=
  match n with
  | .reset => { q with tap := { q.tap with state := .reset, ir := 0x3 }, pdi := q.pdi.abort }
  | .updateIR => { q with tap := { q.tap with state := .updateIR, ir := q.tap.irNext } }
  | .updateDR => { q with
      tap := { q.tap with state := .updateDR }
      pdi := if q.tap.ir = 0x7 then q.pdi.observe (top9 q.srTdi) (top9 q.srTdo) else q.pdi }
  | n => { q with tap := { q.tap with state := n } }

/-- One sample (43_tap_observer.md R166). -/
def Probe.step (q : Probe) (b : BusSample) : Probe :=
  (q.act q.tap.state b.tdi b.tdo).enter (tapNext q.tap.state b.tms)

theorem stateAction_probe (p : TapState) (tdi tdo : Bool) (s : State) :
    (stateAction .observer p tdi tdo s).obs.probe = s.obs.probe.act p tdi tdo := by
  cases p <;> rfl

theorem updateDR_probe (s : State) : (updateDR .observer s).obs.probe =
    { s.obs.probe with
      pdi := if s.obs.tap.ir = 0x7 then s.obs.pdi.observe (top9 s.obs.srTdi) (top9 s.obs.srTdo) else s.obs.pdi } := by
  by_cases h : s.obs.tap.ir = 0x7
  · obtain ⟨c, es, hframe⟩ := observeUnit_frame (top9 s.obs.srTdi) (top9 s.obs.srTdo) (emitCaptured 0x7 s)
    have hc := observeUnit_codec (top9 s.obs.srTdi) (top9 s.obs.srTdo) (emitCaptured 0x7 s)
    have hpdi : updateDR .observer s = observeUnit (top9 s.obs.srTdi) (top9 s.obs.srTdo) (emitCaptured 0x7 s) := by
      rw [updateDR, tapOf_observer, h]
      rfl
    rw [hframe] at hc
    rw [hpdi, hframe, if_pos h]
    exact congrArg (fun c => (⟨s.obs.tap, s.obs.srTdi, s.obs.srTdo, c⟩ : Probe)) hc
  · rw [updateDR_observer_of_ne h, if_neg h]
    rfl

theorem entryAction_moveTap_probe (n : TapState) (s : State) :
    (entryAction .observer n (moveTap .observer n s)).obs.probe = s.obs.probe.enter n := by
  cases n
  case updateDR => exact updateDR_probe (moveTap .observer .updateDR s)
  all_goals rfl

/-- An Observer's step on a sample is `Probe.step` on its registers. -/
theorem observerTap_probe (b : BusSample) (s : State) :
    (observerTap s.obs.tap.state b.tms b s).obs.probe = s.obs.probe.step b := by
  rw [Probe.step, ← stateAction_probe, ← entryAction_moveTap_probe]
  rfl

/-- Some samples one after the other. -/
def Probe.run (bs : List BusSample) (q : Probe) : Probe := bs.foldl Probe.step q

/-- An Observer takes the samples that are pending one step each. -/
theorem runs_samples {bs rest : List BusSample} {s : State} (hs : s.obs.samples = bs ++ rest) :
    ∃ t, runs bs.length s = .next t ∧ t.obs.samples = rest ∧ t.obs.probe = s.obs.probe.run bs := by
  induction bs generalizing s with
  | nil => exact ⟨s, rfl, hs, rfl⟩
  | cons b bs ih =>
    have hleft : (observerTap s.obs.tap.state b.tms b s).obs.samples = bs ++ rest := by
      rw [observerTap_samples, tapStep_observer_samples, hs]
      rfl
    obtain ⟨t, hrun, hst, hq⟩ := ih hleft
    refine ⟨t, (runs_succ (step_sample hs) _).trans hrun, hst, ?_⟩
    rw [hq, observerTap_probe]
    rfl

/-! ### The TAP core -/

/-- A sample as the TAP core of an Observer sees it: the two bits that stand where a Driver's pair does
(43_tap_observer.md R166). -/
def BusSample.pair (b : BusSample) : Pair := ⟨b.tms, b.tdi⟩

/-- The TAP core after some samples. -/
def Tap.run (bs : List BusSample) (t : Tap) : Tap := bs.foldl (fun t b => t.step b.pair) t

theorem probe_step_tap (q : Probe) (b : BusSample) : (q.step b).tap = q.tap.step b.pair := by
  obtain ⟨⟨st, ir, irNext⟩, srTdi, srTdo, pdi⟩ := q
  obtain ⟨tms, tdi, tdo⟩ := b
  cases st <;> cases tms <;> rfl

theorem probe_run_tap (bs : List BusSample) (q : Probe) : (q.run bs).tap = q.tap.run bs := by
  induction bs generalizing q with
  | nil => rfl
  | cons b bs ih => exact (ih (q.step b)).trans (congrArg (Tap.run bs) (probe_step_tap q b))

/-- The TAP core reads TDI in SHIFT-IR only, where a Driver drives the pair's own bit (42_tap_driver.md R146). -/
theorem Tap.step_tdi (q : Port) (x : Pair) : q.tap.step ⟨x.tms, q.tdi x⟩ = q.tap.step x := by
  obtain ⟨⟨st, ir, irNext⟩, sr, pdiOut, pdiIn, idcode⟩ := q
  cases st <;> rfl

/-- A Driver's step records the triples of what it made of its TAP core. -/
theorem step_records {s t : State} (hs : s.obs.samples = []) (hst : step s = .next t) :
    ∃ bs, t.drv.bus = s.drv.bus ++ bs ∧ t.drv.tap = s.drv.tap.run bs := by
  by_cases ho : s.drv.op = .none
  · have hu := step_linkUntouched hs ho hst
    exact ⟨[], hu.bus.trans (List.append_nil _).symm, hu.tap⟩
  · cases hp : s.currentPair with
    | none =>
      obtain rfl := Host.Outcome.next.inj ((step_exhausted hs ho hp).symm.trans hst)
      exact ⟨[], (advance_bus s).trans (List.append_nil _).symm, advance_tap s⟩
    | some x =>
      obtain rfl := Host.Outcome.next.inj ((step_pair hs ho hp).symm.trans hst)
      refine ⟨[⟨x.tms, s.drv.port.tdi x, s.nextTdo⟩], ?_, ?_⟩
      · rw [driverTap_busStepped hp]
        exact advance_bus _
      · rw [driverTap_tap_step hp]
        exact (Tap.step_tdi s.drv.port x).symm

theorem runs_records {n : Nat} {s t : State} (hs : s.obs.samples = []) (hrun : runs n s = .next t) :
    ∃ bs, t.drv.bus = s.drv.bus ++ bs ∧ t.drv.tap = s.drv.tap.run bs := by
  induction n generalizing s with
  | zero =>
    obtain rfl := Host.Outcome.next.inj hrun
    exact ⟨[], (List.append_nil _).symm, rfl⟩
  | succ n ih =>
    obtain ⟨u, hu⟩ := step_next s
    rw [runs_succ hu] at hrun
    obtain ⟨bs, hbus, htap⟩ := step_records hs hu
    obtain ⟨cs, hbus', htap'⟩ := ih ((congrArg Observer.samples (step_obs_of_no_sample hs hu)).trans hs) hrun
    refine ⟨bs ++ cs, ?_, ?_⟩
    · rw [hbus', hbus, List.append_assoc]
    · rw [htap', htap, Tap.run, Tap.run, Tap.run, List.foldl_append]

/-- Settles O56: the triples a Driver records are, for either TAP core, the steps it has made. -/
theorem observerFollowsADriver : Obligations.ObserverFollowsADriver := by
  intro n s t o hs hrun htap hsamples
  obtain ⟨bs, hbus, hdriver⟩ := runs_records hs hrun
  rw [hbus, List.drop_left] at hsamples
  obtain ⟨o', hrun', hleft, hprobe⟩ := runs_samples (hsamples.trans (List.append_nil bs).symm)
  have hobserver : o'.obs.tap = o.obs.tap.run bs := (congrArg Probe.tap hprobe).trans (probe_run_tap bs o.obs.probe)
  rw [hbus, List.length_append, Nat.add_sub_cancel_left]
  exact ⟨o', hrun', by rw [hobserver, htap, hdriver], hleft⟩

end Sys2Proof.Machine

/-! ## The codecs agree after each unit -/

namespace Sys2Proof.Machine

open Sys2Proof Sys2Proof.Spec

/-! ### A scan in an Observer -/

theorem Probe.run_append (bs cs : List BusSample) (q : Probe) : q.run (bs ++ cs) = (q.run bs).run cs :=
  List.foldl_append

/-- The triples of an instruction scan from IDLE latch its code. -/
theorem Probe.run_irScan {q : Probe} (h : q.tap.state = .idle) (code : IrCode) {bs : List Bool} (hlen : bs.length = 9) :
    q.run (samplesOf (irScan code) (irSent code) bs) = { q with tap := ⟨.updateIR, code, code⟩ } := by
  obtain ⟨⟨st, ir, irNext⟩, srTdi, srTdo, pdi⟩ := q
  obtain rfl : st = .idle := h
  match bs, hlen with
  | [_, _, _, _, _, _, _, _, _], _ =>
    exact congrArg (fun c => (⟨⟨.updateIR, c, c⟩, srTdi, srTdo, pdi⟩ : Probe)) (shiftInIr_code code irNext)

theorem Probe.run_toShiftDR {q : Probe} (h : q.tap.state = .idle ∨ q.tap.state = .updateIR) {bs : List Bool}
    (hlen : bs.length = 3) :
    q.run (samplesOf [⟨true, false⟩, ⟨false, false⟩, ⟨false, false⟩] [false, false, false] bs) =
      { q with tap := { q.tap with state := .shiftDR } } := by
  obtain ⟨⟨st, ir, irNext⟩, srTdi, srTdo, pdi⟩ := q
  match bs, hlen with
  | [_, _, _], _ => obtain rfl | rfl : st = .idle ∨ st = .updateIR := h <;> rfl

theorem Probe.step_shiftDR {q : Probe} (h : q.tap.state = .shiftDR) (b : BusSample) :
    q.step b = { q with
      tap := { q.tap with state := if b.tms then .exit1DR else .shiftDR }
      srTdi := shiftIn b.tdi q.srTdi
      srTdo := shiftIn b.tdo q.srTdo } := by
  obtain ⟨⟨st, ir, irNext⟩, srTdi, srTdo, pdi⟩ := q
  obtain ⟨tms, tdi, tdo⟩ := b
  obtain rfl : st = .shiftDR := h
  cases tms <;> rfl

/-- The shift steps, the last of which leaves SHIFT-DR: both capture registers fill (43_tap_observer.md R167). -/
theorem Probe.run_shiftDR {q : Probe} {n : Nat} {sent bits : List Bool} (h : q.tap.state = .shiftDR)
    (hs : sent.length = n + 1) (hb : bits.length = n + 1) :
    q.run (samplesOf (List.replicate n ⟨false, false⟩ ++ [⟨true, false⟩]) sent bits) =
      { q with
        tap := { q.tap with state := .exit1DR }
        srTdi := shifted sent q.srTdi
        srTdo := shifted bits q.srTdo } := by
  induction n generalizing q sent bits with
  | zero =>
    obtain ⟨d, rfl⟩ := List.length_eq_one_iff.mp hs
    obtain ⟨b, rfl⟩ := List.length_eq_one_iff.mp hb
    exact Probe.step_shiftDR h ⟨true, d, b⟩
  | succ n ih =>
    obtain ⟨d, sent, rfl⟩ := List.exists_cons_of_length_eq_add_one hs
    obtain ⟨b, bits, rfl⟩ := List.exists_cons_of_length_eq_add_one hb
    have hstep := Probe.step_shiftDR h ⟨false, d, b⟩
    refine (ih (q := q.step ⟨false, d, b⟩) ?_ (Nat.succ.inj hs) (Nat.succ.inj hb)).trans ?_
    all_goals rw [hstep]
    all_goals rfl

/-- From EXIT1-DR through UPDATE-DR, where the two units of PDICOM reach the codec, to IDLE. -/
theorem Probe.run_toIdle {q : Probe} (h : q.tap.state = .exit1DR) {bs : List Bool} (hlen : bs.length = 2) :
    q.run (samplesOf [⟨true, false⟩, ⟨false, false⟩] [false, false] bs) =
      { q with
        tap := { q.tap with state := .idle }
        pdi := if q.tap.ir = 0x7 then q.pdi.observe (top9 q.srTdi) (top9 q.srTdo) else q.pdi } := by
  obtain ⟨⟨st, ir, irNext⟩, srTdi, srTdo, pdi⟩ := q
  obtain rfl : st = .exit1DR := h
  match bs, hlen with
  | [_, _], _ => rfl

/-- What a data scan makes of an Observer's registers: `sent` and `bits` are the bits of its shift steps. -/
def Probe.scanned (sent bits : List Bool) (q : Probe) : Probe where
  tap := { q.tap with state := .idle }
  srTdi := shifted sent q.srTdi
  srTdo := shifted bits q.srTdo
  pdi := if q.tap.ir = 0x7 then q.pdi.observe (top9 (shifted sent q.srTdi)) (top9 (shifted bits q.srTdo)) else q.pdi

/-- The data scan (42_tap_driver.md R149). -/
theorem Probe.run_drScan {q : Probe} {w : Nat} {sent lead bits tail : List Bool}
    (h : q.tap.state = .idle ∨ q.tap.state = .updateIR) (hpos : 0 < w) (hsent : sent.length = w)
    (hlead : lead.length = 3) (hbits : bits.length = w) (htail : tail.length = 2) :
    q.run (samplesOf (drScan w) ([false, false, false] ++ sent ++ [false, false]) (lead ++ bits ++ tail)) =
      q.scanned sent bits := by
  obtain ⟨n, rfl⟩ := Nat.exists_eq_add_one_of_ne_zero hpos.ne'
  rw [drScan_succ, samplesOf_append (by simp [hsent]) (by simp [hlead, hbits]; omega), samplesOf_append rfl hlead,
    Probe.run_append, Probe.run_append, Probe.run_toShiftDR h hlead, Probe.run_shiftDR rfl hsent hbits,
    Probe.run_toIdle rfl htail]
  rfl

/-- The codec of an Observer after the triples of a scanning operation from IDLE, its instruction scan skipped or not
(42_tap_driver.md R150, 43_tap_observer.md R170). -/
theorem Probe.run_opSeq_pdi {q : Probe} {op : DriverOp} {i : Nat} {sent lead bits tail : List Bool}
    (hop : op.scans = true) (h : q.tap.state = .idle)
    (hi : (i = 9 ∧ q.tap.ir = op.code ∧ lead.length = 3) ∨ (i = 0 ∧ lead.length = 12))
    (hsent : sent.length = width op.code) (hbits : bits.length = width op.code) (htail : tail.length = 2) :
    (q.run (samplesOf ((opSeq op).drop i)
        ((if i = 9 then [] else irSent op.code) ++ ([false, false, false] ++ sent ++ [false, false]))
        (lead ++ bits ++ tail))).pdi =
      if op.code = 0x7 then q.pdi.observe (top9 (shifted sent q.srTdi)) (top9 (shifted bits q.srTdo)) else q.pdi := by
  rw [opSeq_of_scans hop]
  rcases hi with ⟨rfl, hir, hlead⟩ | ⟨rfl, hlead⟩
  · have hscan := Probe.run_drScan (.inl h) (width_pos op.code) hsent hlead hbits htail
    rw [← hir]
    rw [← hir] at hscan
    exact congrArg Probe.pdi hscan
  · have hsplit : lead ++ bits ++ tail = lead.take 9 ++ (lead.drop 9 ++ bits ++ tail) := by
      rw [← List.append_assoc, ← List.append_assoc, List.take_append_drop]
    have htake : (lead.take 9).length = 9 := by simp [hlead]
    rw [hsplit, if_neg (by decide), List.drop_zero, samplesOf_append rfl htake, Probe.run_append,
      Probe.run_irScan h op.code htake,
      Probe.run_drScan (.inr rfl) (width_pos _) hsent (by simp [hlead]) hbits htail]
    rfl

/-! ### The units of a PDICOM scan -/

/-- The unit at the top of a register is the nine bits shifted in, first bit lowest (41_shift_register.md R134). -/
theorem top9_shifted_getLsbD {bits : List Bool} (h : bits.length = 9) (r : Word32) {k : Nat} (hk : k < 9) :
    (top9 (shifted bits r)).getLsbD k = bits.getD k false := by
  have hbit := shifted_getLsbD r (h.le.trans (by decide)) (h ▸ hk)
  rw [h] at hbit
  rw [top9_getLsbD _ hk]
  exact hbit

theorem top9_shifted_congr {bits : List Bool} (h : bits.length = 9) (r r' : Word32) :
    top9 (shifted bits r) = top9 (shifted bits r') :=
  BitVec.eq_of_getLsbD_eq fun k hk => by rw [top9_shifted_getLsbD h r hk, top9_shifted_getLsbD h r' hk]

/-- A unit shifted in bit by bit from the lowest stands at the top. -/
theorem top9_shifted_unit (u : Unit9) (r : Word32) :
    top9 (shifted ((List.range 9).map fun k => (u.setWidth 32 : Word32).getLsbD k) r) = u := by
  refine BitVec.eq_of_getLsbD_eq fun k hk => ?_
  rw [top9_shifted_getLsbD (by simp) r hk]
  simp [hk, show k < 32 by omega]

/-- A list of three lengths' sum falls into lists of these lengths. -/
theorem exists_append_append_of_length {α : Type} {l : List α} {a b c : Nat} (h : l.length = a + b + c) :
    ∃ x y z, l = x ++ y ++ z ∧ x.length = a ∧ y.length = b ∧ z.length = c := by
  refine ⟨l.take a, (l.drop a).take b, (l.drop a).drop b, ?_, ?_, ?_, ?_⟩
  · rw [List.append_assoc, List.take_append_drop, List.take_append_drop]
  all_goals simp; omega

/-- An Observer with a Driver's TAP core that hears a whole PDICOM transfer gives its codec the unit the Driver sent and
the unit it received (43_tap_observer.md R170). -/
theorem Transmits.heard {s t : State} {bits : List Bool} (h : Transmits s t s.pairsLeft bits)
    (hop : s.drv.op = .pdiTransfer) (hst : s.drv.tap.state = .idle)
    (hi : (s.drv.idx = 9 ∧ s.drv.tap.ir = 0x7) ∨ s.drv.idx = 0) {q : Probe} (hq : q.tap = s.drv.tap) :
    (q.run (samplesOf s.pairsLeft (s.drv.port.run s.pairsLeft bits).2 bits)).pdi =
      q.pdi.observe s.drv.pdiOut t.drv.pdiIn := by
  have hleft : s.pairsLeft = (opSeq .pdiTransfer).drop s.drv.idx := by rw [State.pairsLeft, hop]
  have hlen := h.answers
  rw [pairsLeft_length, hop, opSeq_length_pdiTransfer] at hlen
  have hpdiIn : t.drv.pdiIn = (s.drv.port.run s.pairsLeft bits).1.pdiIn := congrArg Port.pdiIn h.port
  obtain ⟨lead, unit, tail, rfl, hlead, hunit, htail⟩ :=
    exists_append_append_of_length (l := bits) (a := 12 - s.drv.idx) (b := 9) (c := 2) (by omega)
  have hi' : (s.drv.idx = 9 ∧ s.drv.tap.ir = 0x7 ∧ lead.length = 3) ∨ (s.drv.idx = 0 ∧ lead.length = 12) := by
    rcases hi with ⟨h9, hir⟩ | h0
    · exact .inl ⟨h9, hir, by omega⟩
    · exact .inr ⟨h0, by omega⟩
  obtain ⟨n, hrun⟩ := Port.run_opSeq (q := s.drv.port) (op := .pdiTransfer) rfl hst hi' hunit htail
  rw [hleft, hrun] at hpdiIn ⊢
  have hobserved := Probe.run_opSeq_pdi (q := q) (op := .pdiTransfer) rfl (by rw [hq, hst]) (by rw [hq]; exact hi')
    (sent := (List.range 9).map fun k => (s.drv.pdiOut.setWidth 32 : Word32).getLsbD k) (by simp; rfl) hunit htail
  rw [top9_shifted_unit, top9_shifted_congr hunit _ (s.drv.port.under 0x7 n).loaded] at hobserved
  rw [hpdiIn]
  exact hobserved

/-! ### A unit from its first action to its last -/

theorem loopTest_frame (s : State) :
    ∃ a, loopTest s = { s with drv := { s.drv with adState := a } } := by
  unfold loopTest
  split
  · exact ⟨.awaitHeader, rfl⟩
  · exact ⟨s.drv.adState, rfl⟩

theorem finishWrite_pdi (s : State) : (finishWrite s).drv.pdi = s.drv.pdi.takeWrite s.drv.pdiOut := by
  obtain ⟨a, h⟩ := loopTest_frame (writeSlot .driver s.drv.pdiOut (handOver s))
  rw [finishWrite, h]
  exact writeSlot_codecOf .driver s.drv.pdiOut (handOver s)

theorem finishRead_pdi (s : State) : (finishRead s).drv.pdi =
    if parityOk s.drv.pdiIn then s.drv.pdi.takeRead s.drv.pdiIn else s.drv.pdi.abort := by
  by_cases hp : parityOk s.drv.pdiIn = true
  · obtain ⟨a, h⟩ := loopTest_frame (readSlot .driver s.drv.pdiIn (handOver s))
    rw [finishRead_of_good hp, h, if_pos hp]
    exact readSlot_codecOf .driver s.drv.pdiIn (handOver s)
  · rw [finishRead_of_bad hp, if_neg hp]
    rfl

theorem finishWrite_task (s : State) : (finishWrite s).drv.task = .none := by
  obtain ⟨a, h⟩ := loopTest_frame (writeSlot .driver s.drv.pdiOut (handOver s))
  rw [finishWrite, h, writeSlot_driver]
  split <;> rfl

theorem finishRead_task (s : State) : (finishRead s).drv.task = .none := by
  by_cases hp : parityOk s.drv.pdiIn = true
  · obtain ⟨a, h⟩ := loopTest_frame (readSlot .driver s.drv.pdiIn (handOver s))
    rw [finishRead_of_good hp, h, readSlot_driver]
    split <;> rfl
  · rw [finishRead_of_bad hp]
    rfl

/-- A Driver whose next step begins a PDICOM transfer, in `u`. Once no operation runs and the host's side has been left
alone, one more step ends the unit: the Driver's codec is then what an Observer's becomes by the two units. -/
structure BeginsUnit (s u : State) : Prop where
  step : step s = .next u
  obs : u.obs = s.obs
  tap : u.drv.tap = s.drv.tap
  bus : u.drv.bus = s.drv.bus
  op : u.drv.op = .pdiTransfer
  idx : u.drv.idx = startIdx 0x7 s
  finish : ∀ t, HostUntouched u t → t.drv.op = .none → ∃ t', Machine.step t = .next t' ∧ t'.drv.op = .none ∧
    t'.drv.task = .none ∧ t'.drv.pdi = s.drv.pdi.observe u.drv.pdiOut t.drv.pdiIn

/-- An opcode byte counts in the codec when it is accepted, before it is sent (45_command_adapter.md R224, R225). -/
theorem beginsUnit_opcode {s : State} {b : Byte} {rest : List Byte} (h : atRest s .awaitOpcode)
    (hidle : s.drv.pdi.opcode = 0xF) (hin : s.drv.hostIn = b :: rest) : ∃ u, BeginsUnit s u := by
  obtain ⟨hs, ho, ha, hb⟩ := h
  obtain ⟨o, x, y, w, n, haccept⟩ := acceptByte_eq_acceptOpcode b
  have hread := hostRead_of_cons hb hin
  have hstep := step_opcode hs ho ha (congrArg (·.drv.inBuf) hread)
  have hpdi := acceptByte_codecOf .driver b s.hostRead
  rw [haccept, hread] at hstep hpdi
  refine ⟨_, hstep, rfl, rfl, rfl, rfl, rfl, fun t hu ht => ?_⟩
  refine ⟨handOver t, ?_, ht, rfl, ?_⟩
  · rw [step_run (hu.obs ▸ hs) ht hu.adState, adapterRun, hu.task]
    rfl
  · have hsent : parityOk (unit9 b) = true := parityOk_unit9 b
    change t.drv.pdi = s.drv.pdi.observe (unit9 b) t.drv.pdiIn
    rw [hu.pdi, Codec.observe, if_pos hidle, if_pos hsent, unitData_unit9]
    exact hpdi

theorem beginsUnit_write {s : State} {b : Byte} {rest : List Byte} (h : atRest s .run) (ht : s.drv.task = .none)
    (hn : s.drv.pdi.opcode ≠ 0xF) (hw : 0 < s.drv.pdi.writeRemaining) (hin : s.drv.hostIn = b :: rest) :
    ∃ u, BeginsUnit s u := by
  have hstep := (adapterStartsTheDueSlot s h ht hn).1 b rest hw hin
  obtain ⟨hs, -, ha, -⟩ := h
  refine ⟨_, hstep, rfl, rfl, rfl, rfl, rfl, fun t hu ho => ?_⟩
  refine ⟨finishWrite t, ?_, (finishWrite_op t).trans ho, finishWrite_task t, ?_⟩
  · rw [step_run (hu.obs ▸ hs) ho (hu.adState.trans ha), adapterRun, hu.task]
  · have hsent : parityOk (unit9 b) = true := parityOk_unit9 b
    rw [finishWrite_pdi, hu.pdi, hu.pdiOut, Codec.observe, if_neg hn, if_pos hw, if_pos hsent]

theorem beginsUnit_read {s : State} (h : atRest s .run) (ht : s.drv.task = .none) (hn : s.drv.pdi.opcode ≠ 0xF)
    (hw : s.drv.pdi.writeRemaining = 0) (hr : 0 < s.drv.pdi.readRemaining) : ∃ u, BeginsUnit s u := by
  have hstep := (adapterStartsTheDueSlot s h ht hn).2 hw hr
  obtain ⟨hs, -, ha, -⟩ := h
  refine ⟨_, hstep, rfl, rfl, rfl, rfl, rfl, fun t hu ho => ?_⟩
  refine ⟨finishRead t, ?_, (finishRead_op t).trans ho, finishRead_task t, ?_⟩
  · rw [step_run (hu.obs ▸ hs) ho (hu.adState.trans ha), adapterRun, hu.task]
  · rw [finishRead_pdi, hu.pdi, Codec.observe, if_neg hn, if_neg (Nat.not_lt.mpr hw.le)]

/-- A unit begun in IDLE takes a bus step for each pair of its scans and one more step; an Observer with the Driver's TAP
core gives its codec the unit sent and the unit received. -/
theorem BeginsUnit.runs {s u : State} {k : Nat} (h : BeginsUnit s u) (hs : s.obs.samples = [])
    (hst : s.drv.tap.state = .idle) (hk : k = if s.drv.tap.ir = 0x7 then 14 else 23) :
    ∃ t bs, runs (k + 2) s = .next t ∧ t.drv.op = .none ∧ t.drv.task = .none ∧ bs.length = k ∧
      t.drv.bus = s.drv.bus ++ bs ∧
      ∀ q : Probe, q.tap = s.drv.tap → q.pdi = s.drv.pdi → (q.run bs).pdi = t.drv.pdi := by
  have hi : (u.drv.idx = 9 ∧ u.drv.tap.ir = 0x7 ∧ k = 14) ∨ (u.drv.idx = 0 ∧ k = 23) := by
    rw [h.idx, h.tap, hk, startIdx]
    split
    · exact .inl ⟨rfl, ‹_›, rfl⟩
    · exact .inr ⟨rfl, rfl⟩
  have hlen : u.pairsLeft.length = k := by
    rw [pairsLeft_length, h.op, opSeq_length_pdiTransfer]
    omega
  have hsu : u.obs.samples = [] := by rw [h.obs, hs]
  obtain ⟨v, bits, hrun, ho, hsent⟩ := runs_transmits hsu rfl fun hnil => by rw [hnil, List.length_nil] at hlen; omega
  obtain ⟨t, hstep, hop, htask, hpdi⟩ := h.finish v hsent.host ho
  have hlast := step_linkUntouched (hsent.host.obs ▸ hsu) ho hstep
  rw [hlen] at hrun
  refine ⟨t, _, (runs_succ h.step (k + 1)).trans ((runs_add hrun 1).trans (runs_succ hstep 0)), hop, htask, ?_,
    hlast.bus.trans (hsent.bus.trans (congrArg (· ++ _) h.bus)), fun q hq hc => ?_⟩
  · rw [samplesOf_length (Port.run_sent_length _ hsent.answers) hsent.answers, hlen]
  · have hstart : (u.drv.idx = 9 ∧ u.drv.tap.ir = 0x7) ∨ u.drv.idx = 0 :=
      hi.imp (fun ⟨h9, hir, _⟩ => ⟨h9, hir⟩) (fun ⟨h0, _⟩ => h0)
    rw [hsent.heard h.op (h.tap ▸ hst) hstart (hq.trans h.tap.symm), hc, hpdi]

/-- Settles O57: the three kinds of unit; the TAP cores agree by O56, the codecs by the two units of the scan. -/
theorem codecsAgreeAfterEachUnit : Obligations.CodecsAgreeAfterEachUnit := by
  intro s b rest k hst hk hunit
  obtain ⟨u, hu⟩ : ∃ u, BeginsUnit s u := by
    rcases hunit with ⟨hrest, hidle, hin⟩ | ⟨hrest, ht, hop, ⟨hw, hin⟩ | ⟨hw, hr⟩⟩
    · exact beginsUnit_opcode hrest hidle hin
    · exact beginsUnit_write hrest ht (Codec.opcode_ne_idle hop) hw hin
    · exact beginsUnit_read hrest ht (Codec.opcode_ne_idle hop) hw hr
  have hs : s.obs.samples = [] := by
    rcases hunit with ⟨hrest, -⟩ | ⟨hrest, -⟩ <;> exact hrest.1
  obtain ⟨t, bs, hrun, ho, ht, hlen, hbus, hcodec⟩ := hu.runs hs hst hk
  have hcount : t.drv.bus.length = s.drv.bus.length + k := by rw [hbus, List.length_append, hlen]
  refine ⟨t, hrun, ho, ht, hcount, fun o htap hpdi hsamples => ?_⟩
  obtain ⟨o', hrun', htap', hleft⟩ := observerFollowsADriver _ s t o hs hrun htap hsamples
  rw [hbus, List.drop_left] at hsamples
  obtain ⟨o'', hrun'', -, hprobe⟩ := runs_samples (hsamples.trans (List.append_nil bs).symm)
  rw [hcount, Nat.add_sub_cancel_left] at hrun'
  rw [hlen] at hrun''
  obtain rfl := Host.Outcome.next.inj (hrun'.symm.trans hrun'')
  exact ⟨o', hrun', (congrArg Probe.pdi hprobe).trans (hcodec o.obs.probe htap hpdi), htap', hleft⟩

end Sys2Proof.Machine

/-! # Proofs about the Observer (43_tap_observer.md)

O39: taking a fault. O25 and O27: the opcodes and the JTAG codes in an Observer. O12 to O14: the two units of a scan
under PDICOM, by the kind of unit that is due. O58: an Observer beside a Driver, one operation after the other. -/

/-! ## Faults, opcodes and codes in an Observer -/

namespace Sys2Proof.Machine

open Sys2Proof Sys2Proof.Spec

/-- Settles O39: `Abort()` and the report are all that taking a fault writes. -/
theorem takingAFaultAbortsAndReports : Obligations.TakingAFaultAbortsAndReports :=
  fun _ _ _ => ⟨rfl, rfl⟩

theorem exec_lds (x : Bool) (a b : Nat) (s : State) : exec (.lds x a b) s = .next (acceptLds s.due x a b s) := rfl

theorem exec_ld (x : Bool) (m b : Nat) (s : State) : exec (.ld x m b) s = .next (acceptLd s.due x m b s) := rfl

theorem exec_sts (x : Bool) (a b : Nat) (s : State) : exec (.sts x a b) s = .next (acceptSts s.due x a b s) := rfl

theorem exec_st (x : Bool) (m b : Nat) (s : State) : exec (.st x m b) s = .next (acceptSt s.due x m b s) := rfl

/-- Accepting in an Observer is `Accept` in its codec and the event (44_pdi_codec.md R183, R204). -/
theorem acceptOpcode_observer (b : Byte) (o : BitVec 4) (x y w n : Nat) (s : State) :
    acceptOpcode .observer b o x y w n s = opcodeSeen s b (accepted s.obs.pdi o x y w n) := rfl

/-- Settles O25: each opcode by its operands; those of LDCS, STCS and KEY give the mechanical sizes. -/
theorem observerAcceptsOpcodes : Obligations.ObserverAcceptsOpcodes := by
  intro s e rest x a b c u k hs _ _ hc _ hk
  have hdue := due_of_samples_cons hs
  refine ⟨?lds, ?ld, ?sts, ?st, ?ldcs, ?rept, ?stcs, ?key⟩
  case lds => rw [exec_lds, hdue, acceptLds, acceptOpcode_observer]; rfl
  case ld => rw [exec_ld, hdue, acceptLd, acceptOpcode_observer]; rfl
  case sts => rw [exec_sts, hdue, acceptSts, acceptOpcode_observer]; rfl
  case st => rw [exec_st, hdue, acceptSt, acceptOpcode_observer]; rfl
  case ldcs => rw [exec_ldcs, hdue, acceptLdcs, sizeAOfLow_of_le hc, acceptOpcode_observer]; rfl
  case rept => rw [exec_rept, hdue, acceptRept, acceptOpcode_observer]; rfl
  case stcs => rw [exec_stcs, hdue, acceptStcs, sizeAOfLow_of_le hc, acceptOpcode_observer]; rfl
  case key => rw [exec_key, hdue, acceptKey, sizeAOfLow_of_le hk, acceptOpcode_observer]; rfl

/-! ### The units of a scan by the kind of unit that is due (44_pdi_codec.md R204) -/

theorem observeUnit_of_idle {s : State} (h : s.obs.pdi.opcode = 0xF) (u v : Unit9) : observeUnit u v s =
    if parityOk u then acceptByte .observer (unitData u) s else raise .observer (.parityError u .opcode) u s :=
  if_pos h

theorem observeUnit_of_write {s : State} (h : s.obs.pdi.opcode ≠ 0xF) (hw : 0 < s.obs.pdi.writeRemaining)
    (u v : Unit9) : observeUnit u v s =
      if parityOk u then writeSlot .observer u s else raise .observer (.parityError u .write) u s :=
  (if_neg h).trans (if_pos hw)

theorem observeUnit_of_read {s : State} (h : s.obs.pdi.opcode ≠ 0xF) (hw : s.obs.pdi.writeRemaining = 0)
    (u v : Unit9) : observeUnit u v s =
      if parityOk v then readSlot .observer v s else raise .observer (.parityError v .read) v s :=
  (if_neg h).trans (if_neg (Nat.not_lt.mpr hw.le))

/-- What a capture delivers is reported after it (43_tap_observer.md R168 to R172). -/
theorem emit_emitCaptured (code : IrCode) (e : Event) (s : State) : (emitCaptured code s).emit .observer [e] =
    { s with obs := { s.obs with events := s.obs.events ++ [.capturedDR (captureOf s code), e] } } := by
  simp only [emitCaptured, State.emit, List.append_assoc, List.singleton_append]
  rfl

theorem raise_emitCaptured (f : PdiFault) (u : Unit9) (code : IrCode) (s : State) :
    raise .observer f u (emitCaptured code s) = { s with obs := { s.obs with
      pdi := aborted s.obs.pdi, events := s.obs.events ++ [.capturedDR (captureOf s code), .fault f u] } } :=
  congrArg (fun t : State => t.setCodec .observer (aborted s.obs.pdi)) (emit_emitCaptured code (.fault f u) s)

/-- Settles O27: outside PDICOM the capture is delivered whole; under PDICOM the bad unit is the opcode unit. -/
theorem observerJtagInstructionsDeliver : Obligations.ObserverJtagInstructionsDeliver := by
  intro s b rest hs
  rw [exec_irIdcode, exec_irBypass, exec_irPdicom, due_of_samples_cons hs]
  refine ⟨?idcode, ?bypass, fun hidle hbad => ?pdicom⟩
  case idcode => rw [idcodeUpdate, emit_emitCaptured, capturedDR_of_width (by decide)]
  case bypass => rw [bypassUpdate, otherUpdate, emit_emitCaptured, capturedDR_of_width (by decide)]
  case pdicom =>
    have hunit : ¬ parityOk (top9 s.obs.srTdi) = true := ne_true_of_eq_false hbad
    rw [pdicomUpdate, observeUnit_of_idle (s := emitCaptured 0x7 s) hidle, if_neg hunit, raise_emitCaptured]
    rfl

end Sys2Proof.Machine

/-! ## Entry to UPDATE-DR under PDICOM -/

namespace Sys2Proof.Machine

open Sys2Proof Sys2Proof.Spec

/-- An Observer at UPDATE-DR under PDICOM, the capture reported, before its codec is given the two units
(43_tap_observer.md R168, R170). -/
def capturing (s : State) : State := emitCaptured 0x7 (moveTap .observer .updateDR s)

theorem updateDR_of_pdicom {r : Role} {s : State} (h : (s.tapOf r).ir = 0x7) : updateDR r s = pdicomUpdate r s := by
  rw [updateDR, h]
  rfl

/-- A row that enters UPDATE-DR under PDICOM gives the codec the two units captured (43_tap_observer.md R170). -/
theorem exec_pdicom_row {s : State} {b : BusSample} {rest : List BusSample} {i : Instr} {p : TapState} {t : Bool}
    (hs : s.obs.samples = b :: rest) (h : (i, p, t, .updateDR) ∈ tapRows) (hir : s.obs.tap.ir = 0x7) :
    exec i s = .next (observed s rest p .updateDR
      (observeUnit (top9 s.obs.srTdi) (top9 s.obs.srTdo) (capturing s)).obs) := by
  obtain ⟨hn, hexec⟩ := exec_observer_row hs h
  obtain ⟨c, es, hframe⟩ := observeUnit_frame (top9 s.obs.srTdi) (top9 s.obs.srTdo) (capturing s)
  have hunits : updateDR .observer (moveTap .observer .updateDR s) =
      observeUnit (top9 s.obs.srTdi) (top9 s.obs.srTdo) (capturing s) :=
    updateDR_of_pdicom (r := .observer) (s := moveTap .observer .updateDR s) hir
  rw [hframe] at hunits ⊢
  exact hexec.trans (congrArg Host.Outcome.next (observerTap_entered hs hn (.inr (.inr rfl)) rfl hunits))

/-- A fault on entry to UPDATE-DR: the codec aborts, the capture and the fault are reported. -/
theorem observed_raise (s : State) (rest : List BusSample) (p : TapState) (f : PdiFault) (u : Unit9) :
    observed s rest p .updateDR (raise .observer f u (capturing s)).obs = observed s rest p .updateDR { s.obs with
      pdi := aborted s.obs.pdi,
      events := s.obs.events ++ [.capturedDR (captureOf s 0x7), .fault f u] } := by
  rw [capturing, raise_emitCaptured]
  rfl

/-- Settles O12: the unit on TDI is an opcode unit. -/
theorem observerPdicomOpcodeUnit : Obligations.ObserverPdicomOpcodeUnit := by
  intro s b rest i p t u hs h hir hidle hu
  have hexec := exec_pdicom_row hs h hir
  rw [observeUnit_of_idle (s := capturing s) hidle, show top9 s.obs.srTdi = u from hu.symm] at hexec
  refine ⟨fun hgood => ?good, fun hbad => ?bad⟩
  case good =>
    have haccept := exec_decodeOpcode (unitData u) (capturing s)
    rw [due_of_samples_cons (show (capturing s).obs.samples = b :: rest from hs)] at haccept
    rw [if_pos hgood] at hexec
    exact ⟨_, haccept, hexec⟩
  case bad =>
    rw [if_neg (ne_true_of_eq_false hbad), observed_raise] at hexec
    exact hexec

/-- Settles O13: the unit of the slot that is due, on its own line. -/
theorem observerPdicomSlotUnit : Obligations.ObserverPdicomSlotUnit := by
  intro s b rest i p t u v hs h hir hrun hu hv
  have hexec := exec_pdicom_row hs h hir
  rw [show top9 s.obs.srTdi = u from hu.symm, show top9 s.obs.srTdo = v from hv.symm] at hexec
  refine ⟨fun hw => ?write, fun hw => ?read⟩
  case write =>
    rw [observeUnit_of_write (s := capturing s) hrun hw] at hexec
    refine ⟨fun hgood hop => ?_, fun hbad => ?_⟩
    · rw [if_pos hgood, writeSlot_observer, if_pos (show (capturing s).obs.pdi.opcode.toNat < 8 from hop)] at hexec
      exact hexec
    · rw [if_neg (ne_true_of_eq_false hbad), observed_raise] at hexec
      exact hexec
  case read =>
    rw [observeUnit_of_read (s := capturing s) hrun hw] at hexec
    refine ⟨fun hgood hop => ?_, fun hbad => ?_⟩
    · rw [if_pos hgood, readSlot_observer, if_pos (show (capturing s).obs.pdi.opcode.toNat < 8 from hop)] at hexec
      exact hexec
    · rw [if_neg (ne_true_of_eq_false hbad), observed_raise] at hexec
      exact hexec

/-- Settles O14: the good unit of the due slot meets a dispatch that finds no opcode. -/
theorem observerCorruptOpcodeTakesProtocolError : Obligations.ObserverCorruptOpcodeTakesProtocolError := by
  intro s b rest i p t u v hs h hir hop hrun hu hv
  have hexec := exec_pdicom_row hs h hir
  have hdispatch : ¬ (capturing s).obs.pdi.opcode.toNat < 8 := Nat.not_lt.mpr hop
  rw [show top9 s.obs.srTdi = u from hu.symm, show top9 s.obs.srTdo = v from hv.symm] at hexec
  refine ⟨fun hw hgood => ?write, fun hw hgood => ?read⟩
  case write =>
    rw [observeUnit_of_write (s := capturing s) hrun hw, if_pos hgood, writeSlot_observer, if_neg hdispatch,
      observed_raise] at hexec
    exact hexec
  case read =>
    rw [observeUnit_of_read (s := capturing s) hrun hw, if_pos hgood, readSlot_observer, if_neg hdispatch,
      observed_raise] at hexec
    exact hexec

end Sys2Proof.Machine

/-! ## The codecs agree along a run -/

namespace Sys2Proof.Machine

open Sys2Proof Sys2Proof.Spec

/-! ### A Driver between two units -/

/-- A Driver that steps next, legal and in step with its sequences. -/
structure State.InStep (s : State) : Prop where
  samples : s.obs.samples = []
  legal : s.Legal
  aligned : s.drv.Aligned

theorem State.InStep.step {s t : State} (h : s.InStep) (hst : step s = .next t) : t.InStep :=
  ⟨(congrArg Observer.samples (step_obs_of_no_sample h.samples hst)).trans h.samples,
    stepKeepsTheStateLegal s t h.legal hst, stepKeepsTheDriverAligned s t h.aligned hst⟩

theorem State.InStep.runs {n : Nat} {s t : State} (h : s.InStep) (hrun : runs n s = .next t) : t.InStep := by
  induction n generalizing s with
  | zero => exact Host.Outcome.next.inj hrun ▸ h
  | succ n ih =>
    obtain ⟨u, hu⟩ := step_next s
    exact ih (h.step hu) ((runs_succ hu n).symm.trans hrun)

/-- The adapter of a legal Driver waits for the operation that runs. -/
theorem task_ne_none_of_op {d : Driver} (h : d.AdapterOk) (ho : d.op ≠ .none) : d.task ≠ .none := by
  intro ht
  obtain ⟨-, -, hm⟩ := h
  cases ha : d.adState <;> rw [ha] at hm
  case awaitHeader => exact ho hm.2.1
  case awaitOpcode => exact ho hm.2.1
  case run =>
    rw [ht] at hm
    exact ho hm.1

/-- No operation runs and none is to be finished. -/
structure State.BetweenUnits (s : State) : Prop extends s.InStep where
  op : s.drv.op = .none
  task : s.drv.task = .none

theorem State.BetweenUnits.standsAtRest {s : State} (h : s.BetweenUnits) : atRest s s.drv.adState :=
  ⟨h.samples, h.op, rfl, h.legal.adapter.1⟩

theorem State.BetweenUnits.idle {s : State} (h : s.BetweenUnits) : s.drv.tap.state = .idle :=
  ((aligned_iff_of_none h.op).mp h.aligned).1

/-- Inside `Run` a transaction is pending, with a slot (10_state.md R30). -/
theorem State.BetweenUnits.running {s : State} (h : s.BetweenUnits) (ha : s.drv.adState = .run) :
    s.drv.pdi.opcode ≠ 0xF ∧ (0 < s.drv.pdi.writeRemaining ∨
      s.drv.pdi.writeRemaining = 0 ∧ 0 < s.drv.pdi.readRemaining) := by
  obtain ⟨-, -, hm⟩ := h.legal.adapter
  rw [ha, h.task] at hm
  obtain ⟨-, hn, -⟩ := hm
  have hslot := h.legal.drvCodec.running hn
  exact ⟨hn, by omega⟩

/-! ### An Observer beside a Driver -/

/-- An Observer's registers as far as a Driver has them too. -/
structure Probe.Agrees (q : Probe) (d : Driver) : Prop where
  tap : q.tap = d.tap
  pdi : q.pdi = d.pdi

/-- An Observer that agrees with the Driver in `s` and hears what it drives up to `t` agrees with it in `t`. -/
def Followed (s t : State) : Prop :=
  ∃ bs, t.drv.bus = s.drv.bus ++ bs ∧ ∀ q : Probe, q.Agrees s.drv → (q.run bs).Agrees t.drv

theorem Followed.refl (s : State) : Followed s s := ⟨[], (List.append_nil _).symm, fun _ h => h⟩

theorem Followed.trans {s t u : State} (h : Followed s t) (k : Followed t u) : Followed s u := by
  obtain ⟨bs, hbus, hq⟩ := h
  obtain ⟨cs, hbus', hq'⟩ := k
  refine ⟨bs ++ cs, by rw [hbus', hbus, List.append_assoc], fun q hs => ?_⟩
  rw [Probe.run_append]
  exact hq' _ (hq q hs)

/-- The TAP cores agree in any case (43_tap_observer.md R176); it is the codecs that count. -/
theorem followed_of_codec {n : Nat} {s t : State} {bs : List BusSample} (hs : s.obs.samples = [])
    (hrun : runs n s = .next t) (hbus : t.drv.bus = s.drv.bus ++ bs)
    (h : ∀ q : Probe, q.Agrees s.drv → (q.run bs).pdi = t.drv.pdi) : Followed s t := by
  obtain ⟨cs, hbus', htap⟩ := runs_records hs hrun
  obtain rfl : cs = bs := List.append_cancel_left (hbus'.symm.trans hbus)
  exact ⟨cs, hbus, fun q hq => ⟨by rw [probe_run_tap, hq.tap, htap], h q hq⟩⟩

/-- A Driver whose next step waits for a byte or takes a header that begins no operation. -/
structure RestsIn (s u : State) : Prop where
  step : step s = .next u
  op : u.drv.op = .none
  task : u.drv.task = .none
  pdi : u.drv.pdi = s.drv.pdi

/-- Such a step drives nothing (42_tap_driver.md R156). -/
theorem RestsIn.followed {s u : State} (h : RestsIn s u) (hs : s.BetweenUnits) : Followed s u :=
  followed_of_codec (n := 1) (bs := []) hs.samples (runs_succ h.step 0)
    ((step_linkUntouched hs.samples hs.op h.step).bus.trans (List.append_nil _).symm)
    fun _ hq => hq.pdi.trans h.pdi.symm

theorem RestsIn.betweenUnits {s u : State} (h : RestsIn s u) (hs : s.BetweenUnits) : u.BetweenUnits :=
  ⟨hs.toInStep.step h.step, h.op, h.task⟩

/-! ### The three operations -/

/-- A Driver whose next step begins an operation, in `u`. Once its pairs are driven, one more step ends it, and an
Observer that has heard them has the Driver's codec. -/
structure BeginsOperation (s u : State) : Prop where
  step : step s = .next u
  op : u.drv.op ≠ .none
  finish : ∀ v bits, Transmits u v u.pairsLeft bits → v.drv.op = .none →
    ∃ t, Machine.step v = .next t ∧ t.drv.op = .none ∧ t.drv.task = .none ∧
      ∀ q : Probe, q.Agrees s.drv →
        (q.run (samplesOf u.pairsLeft (u.drv.port.run u.pairsLeft bits).2 bits)).pdi = t.drv.pdi

/-- A scanning operation skips its instruction scan or has all of it before it (42_tap_driver.md R150). -/
theorem startIdx_cases (code : IrCode) (s : State) :
    (startIdx code s = 9 ∧ s.drv.tap.ir = code) ∨ startIdx code s = 0 := by
  by_cases hir : s.drv.tap.ir = code
  · exact .inl ⟨if_pos hir, hir⟩
  · exact .inr (if_neg hir)

/-- Of a PDICOM transfer an Observer takes the two units (43_tap_observer.md R170). -/
theorem BeginsUnit.beginsOperation {s u : State} (h : BeginsUnit s u) (hst : s.drv.tap.state = .idle) :
    BeginsOperation s u := by
  refine ⟨h.step, by rw [h.op]; decide, fun v bits hsent ho => ?_⟩
  obtain ⟨t, hstep, hop, htask, hpdi⟩ := h.finish v hsent.host ho
  have hstart : (u.drv.idx = 9 ∧ u.drv.tap.ir = 0x7) ∨ u.drv.idx = 0 := by
    rw [h.idx, h.tap]
    exact startIdx_cases 0x7 s
  refine ⟨t, hstep, hop, htask, fun q hq => ?_⟩
  rw [hsent.heard h.op (h.tap ▸ hst) hstart (hq.tap.trans h.tap.symm), hq.pdi, hpdi]

/-- Of a Reset sequence from IDLE an Observer's codec takes the entry to RESET alone (43_tap_observer.md R174). -/
theorem Probe.run_resetSeq_pdi {q : Probe} (h : q.tap.state = .idle) {sent bits : List Bool}
    (hs : sent.length = resetSeq.length) (hb : bits.length = resetSeq.length) :
    (q.run (samplesOf resetSeq sent bits)).pdi = q.pdi.abort := by
  obtain ⟨⟨st, ir, irNext⟩, srTdi, srTdo, pdi⟩ := q
  obtain rfl : st = .idle := h
  match sent, bits, hs, hb with
  | [_, _, _, _, _, _], [_, _, _, _, _, _], _, _ => rfl

/-- `Reset` aborts the Driver's codec before its first pair (45_command_adapter.md R222). -/
theorem beginsOperation_reset {s : State} {rest : List Byte} (h : atRest s .awaitHeader)
    (hst : s.drv.tap.state = .idle) (hin : s.drv.hostIn = 0x1E :: rest) : BeginsOperation s (resetBegun rest s) := by
  refine ⟨step_resetHeader h hin, nofun, fun v bits hsent ho => ?_⟩
  refine ⟨finishReset v, ?_, ho, rfl, fun q hq => ?_⟩
  · exact step_finishReset (hsent.host.obs ▸ h.1) ho hsent.host.adState hsent.host.task
  · have habort := Probe.run_resetSeq_pdi (q := q) (by rw [hq.tap, hst])
      (Port.run_sent_length (resetBegun rest s).drv.port hsent.answers) hsent.answers
    exact habort.trans ((congrArg Codec.abort hq.pdi).trans hsent.host.pdi.symm)

/-- Of a scan under IDCODE an Observer's codec takes nothing (43_tap_observer.md R169). -/
theorem Transmits.heard_readId {s t : State} {bits : List Bool} (h : Transmits s t s.pairsLeft bits)
    (hop : s.drv.op = .readId) (hst : s.drv.tap.state = .idle)
    (hi : (s.drv.idx = 9 ∧ s.drv.tap.ir = 0x3) ∨ s.drv.idx = 0) {q : Probe} (hq : q.tap = s.drv.tap) :
    (q.run (samplesOf s.pairsLeft (s.drv.port.run s.pairsLeft bits).2 bits)).pdi = q.pdi := by
  have hleft : s.pairsLeft = (opSeq .readId).drop s.drv.idx := by rw [State.pairsLeft, hop]
  have hlen := h.answers
  rw [pairsLeft_length, hop, opSeq_length_readId] at hlen
  obtain ⟨lead, word, tail, rfl, hlead, hword, htail⟩ :=
    exists_append_append_of_length (l := bits) (a := 12 - s.drv.idx) (b := 32) (c := 2) (by omega)
  have hi' : (s.drv.idx = 9 ∧ s.drv.tap.ir = 0x3 ∧ lead.length = 3) ∨ (s.drv.idx = 0 ∧ lead.length = 12) := by
    rcases hi with ⟨h9, hir⟩ | h0
    · exact .inl ⟨h9, hir, by omega⟩
    · exact .inr ⟨h0, by omega⟩
  obtain ⟨n, hrun⟩ := Port.run_opSeq (q := s.drv.port) (op := .readId) rfl hst hi' hword htail
  rw [hleft, hrun]
  exact Probe.run_opSeq_pdi (q := q) (op := .readId) rfl (by rw [hq, hst]) (by rw [hq]; exact hi')
    (sent := (List.range 32).map fun k => (s.drv.port.under 0x3 n).loaded.getLsbD k) (by simp; rfl) hword htail

theorem beginsOperation_idCode {s : State} {rest : List Byte} (h : atRest s .awaitHeader)
    (hst : s.drv.tap.state = .idle) (hin : s.drv.hostIn = 0x10 :: rest) : BeginsOperation s (idCodeBegun rest s) := by
  refine ⟨step_idCodeHeader h hin, nofun, fun v bits hsent ho => ?_⟩
  refine ⟨finishIdCode v, ?_, ho, rfl, fun q hq => ?_⟩
  · rw [step_run (hsent.host.obs ▸ h.1) ho hsent.host.adState, adapterRun, hsent.host.task]
    rfl
  · exact (hsent.heard_readId rfl hst (startIdx_cases 0x3 s) hq.tap).trans (hq.pdi.trans hsent.host.pdi.symm)

/-! ### From one unit to the next -/

theorem State.BetweenUnits.waits {s : State} (h : s.BetweenUnits) (ha : s.drv.adState ≠ .run)
    (hin : s.drv.hostIn = []) : RestsIn s s := by
  have hread : s.hostRead.drv.inBuf = none := by rw [hostRead_of_empty hin, h.legal.adapter.1]
  exact ⟨step_waits h.samples h.op ha hread, h.op, h.task, rfl⟩

theorem State.BetweenUnits.awaitHeader {s : State} (h : s.BetweenUnits) (ha : s.drv.adState = .awaitHeader) :
    (∃ u, RestsIn s u) ∨ ∃ u, BeginsOperation s u := by
  have hrest : atRest s .awaitHeader := ha ▸ h.standsAtRest
  cases hin : s.drv.hostIn with
  | nil => exact .inl ⟨s, h.waits (by rw [ha]; decide) hin⟩
  | cons b rest =>
    have hread := hostRead_of_cons h.legal.adapter.1 hin
    have hstep := step_header h.samples h.op ha (congrArg (·.drv.inBuf) hread)
    rw [hread, headerEffect] at hstep
    by_cases h0 : b = 0x1E
    · exact .inr ⟨_, beginsOperation_reset hrest h.idle (h0 ▸ hin)⟩
    by_cases h1 : b = 0x10
    · exact .inr ⟨_, beginsOperation_idCode hrest h.idle (h1 ▸ hin)⟩
    rw [if_neg h0, if_neg h1] at hstep
    by_cases h2 : b = 0x11
    · rw [if_pos h2] at hstep
      exact .inl ⟨_, hstep, h.op, h.task, rfl⟩
    · rw [if_neg h2] at hstep
      exact .inl ⟨_, hstep, h.op, h.task, rfl⟩

theorem State.BetweenUnits.awaitOpcode {s : State} (h : s.BetweenUnits) (ha : s.drv.adState = .awaitOpcode) :
    (∃ u, RestsIn s u) ∨ ∃ u, BeginsOperation s u := by
  have hrest : atRest s .awaitOpcode := ha ▸ h.standsAtRest
  have hnot : s.drv.adState ≠ .run := by rw [ha]; decide
  cases hin : s.drv.hostIn with
  | nil => exact .inl ⟨s, h.waits hnot hin⟩
  | cons b rest =>
    have hidle := (Driver.Legal.quiet_of_waits ⟨h.legal.drvCodec, h.legal.adapter⟩ hnot).2
    obtain ⟨u, hu⟩ := beginsUnit_opcode hrest hidle hin
    exact .inr ⟨u, hu.beginsOperation h.idle⟩

theorem State.BetweenUnits.run {s : State} (h : s.BetweenUnits) (ha : s.drv.adState = .run) :
    (∃ u, RestsIn s u) ∨ ∃ u, BeginsOperation s u := by
  have hrest : atRest s .run := ha ▸ h.standsAtRest
  obtain ⟨hn, hw | ⟨hw, hr⟩⟩ := h.running ha
  · cases hin : s.drv.hostIn with
    | nil =>
      have hstep := step_run h.samples h.op ha
      rw [adapterRun_of_loop h.task, nextSlotAction_of_write hn hw, startWrite_of_empty h.legal.adapter.1 hin] at hstep
      exact .inl ⟨s, hstep, h.op, h.task, rfl⟩
    | cons b rest =>
      obtain ⟨u, hu⟩ := beginsUnit_write hrest h.task hn hw hin
      exact .inr ⟨u, hu.beginsOperation h.idle⟩
  · obtain ⟨u, hu⟩ := beginsUnit_read hrest h.task hn hw hr
    exact .inr ⟨u, hu.beginsOperation h.idle⟩

/-- A Driver between two units waits, takes a header with no operation, or begins one. -/
theorem State.BetweenUnits.rests_or_begins {s : State} (h : s.BetweenUnits) :
    (∃ u, RestsIn s u) ∨ ∃ u, BeginsOperation s u := by
  cases ha : s.drv.adState with
  | awaitHeader => exact h.awaitHeader ha
  | awaitOpcode => exact h.awaitOpcode ha
  | run => exact h.run ha

/-- While pairs are left, a run leaves the adapter's task alone. -/
theorem runs_hostUntouched {n : Nat} {s t : State} (hs : s.obs.samples = []) (hn : n ≤ s.pairsLeft.length)
    (hrun : runs n s = .next t) : HostUntouched s t := by
  induction n generalizing s with
  | zero => exact Host.Outcome.next.inj hrun ▸ (Transmits.refl s).host
  | succ n ih =>
    cases hp : s.pairsLeft with
    | nil => rw [hp] at hn; exact absurd hn (Nat.not_succ_le_zero n)
    | cons x xs =>
      have hc := currentPair_of_pairsLeft hp
      have hstep := step_pair hs (op_ne_none_of_pairsLeft hp) hc
      rw [driverTap_busStepped hc] at hstep
      have hhost := (advance_busStepped_transmits x s.nextTdo s).host
      have hleft := (advance_pairsLeft (s := busStepped x s.nextTdo s) hp).1
      rw [hp] at hn
      rw [runs_succ hstep] at hrun
      exact hhost.trans (ih (hhost.obs ▸ hs) (by rw [hleft]; exact Nat.le_of_succ_le_succ hn) hrun)

/-- An operation begun runs to its end, where the Driver is between two units again and an Observer has followed it; up
to its last pair the adapter waits for it. -/
theorem BeginsOperation.runs {s u : State} (h : BeginsOperation s u) (hs : s.BetweenUnits) :
    ∃ m w, runs (m + 1) u = .next w ∧ w.BetweenUnits ∧ Followed s w ∧
      ∀ n t, n ≤ m → runs n u = .next t → t.drv.task ≠ .none := by
  have hu := hs.toInStep.step h.step
  have hleft : u.pairsLeft.length ≠ 0 := by
    rw [pairsLeft_length]
    exact Nat.sub_ne_zero_of_lt (hu.aligned.idx_lt h.op)
  obtain ⟨v, bits, hrun, ho, hsent⟩ :=
    runs_transmits hu.samples rfl fun hnil => absurd (congrArg List.length hnil) hleft
  obtain ⟨w, hstep, hop, htask, hcodec⟩ := h.finish v bits hsent ho
  have hv := hu.runs hrun
  have hend : Spec.runs (u.pairsLeft.length + 1) u = .next w := (runs_add hrun 1).trans (runs_succ hstep 0)
  have hbus : w.drv.bus = s.drv.bus ++ samplesOf u.pairsLeft (u.drv.port.run u.pairsLeft bits).2 bits := by
    rw [(step_linkUntouched hv.samples ho hstep).bus, hsent.bus, (step_linkUntouched hs.samples hs.op h.step).bus]
  refine ⟨_, w, hend, ⟨hv.step hstep, hop, htask⟩,
    followed_of_codec hs.samples ((runs_succ h.step _).trans hend) hbus hcodec, fun n t hn ht => ?_⟩
  rw [(runs_hostUntouched hu.samples hn ht).task]
  exact task_ne_none_of_op hu.legal.adapter h.op

/-- From one moment between two units to any other: the actions that begin no operation, and the operations begun, one
after the other. -/
theorem State.BetweenUnits.followed {n : Nat} {s t : State} (h : s.BetweenUnits) (hrun : Spec.runs n s = .next t)
    (ht : t.drv.task = .none) : Followed s t := by
  induction n using Nat.strong_induction_on generalizing s with
  | _ n ih =>
    cases n with
    | zero => exact Host.Outcome.next.inj hrun ▸ .refl s
    | succ n =>
      rcases h.rests_or_begins with ⟨u, hu⟩ | ⟨u, hu⟩
      · rw [runs_succ hu.step] at hrun
        exact (hu.followed h).trans (ih n n.lt_succ_self (hu.betweenUnits h) hrun)
      · rw [runs_succ hu.step] at hrun
        obtain ⟨m, w, hend, hw, hfollowed, hinside⟩ := hu.runs h
        have hm : m + 1 ≤ n := Nat.lt_of_not_le fun hle => hinside n t hle hrun ht
        rw [← Nat.add_sub_cancel' hm, runs_add hend] at hrun
        exact hfollowed.trans (ih (n - (m + 1)) (by omega) hw hrun)

/-- Settles O58: an Observer with the Driver's TAP core and codec follows it from one unit to the next. -/
theorem codecsAgreeBetweenUnits : Obligations.CodecsAgreeBetweenUnits := by
  intro n s t o hs hlegal haligned hop htask hrun _ ht htap hpdi hsamples
  have hbetween : s.BetweenUnits := ⟨⟨hs, hlegal, haligned⟩, hop, htask⟩
  obtain ⟨bs, hbus, hq⟩ := hbetween.followed hrun ht
  rw [hbus, List.drop_left] at hsamples
  obtain ⟨o', hrun', hleft, hprobe⟩ := runs_samples (hsamples.trans (List.append_nil bs).symm)
  obtain ⟨htap', hpdi'⟩ := hq o.obs.probe ⟨htap, hpdi⟩
  rw [← hprobe] at htap' hpdi'
  rw [hbus, List.length_append, Nat.add_sub_cancel_left]
  exact ⟨o', hrun', hpdi', htap', hleft⟩

end Sys2Proof.Machine

/-! # Proofs about the PDI codec (44_pdi_codec.md)

O49: what the two roles report, from a legal state. O40 to O42: slots, counters and `Settle`. O45: the count table. O21
and O22, O31 to O33: opcodes and finished slots in a Driver. O44: whole transactions, iteration by iteration. -/

/-! ## What is reported -/

namespace Sys2Proof.Machine

open Sys2Proof

/-- No ProtocolError among some events (44_pdi_codec.md R201). -/
def NoProtocolEvents (es : List Event) : Prop := ∀ f u, Event.fault f u ∈ es → f.isProtocol = false

/-- No ProtocolError among the reports of a Driver. -/
def NoProtocolReports (rs : List FaultReport) : Prop := ∀ r ∈ rs, r.fault.isProtocol = false

theorem noProtocolError_iff (s : State) :
    s.noProtocolError ↔ NoProtocolReports s.drv.faults ∧ NoProtocolEvents s.obs.events := Iff.rfl

theorem NoProtocolEvents.append {es es' : List Event} (h : NoProtocolEvents es) (h' : NoProtocolEvents es') :
    NoProtocolEvents (es ++ es') :=
  fun f u hm => (List.mem_append.mp hm).elim (h f u) (h' f u)

theorem NoProtocolEvents.concat_parityError {es : List Event} (h : NoProtocolEvents es) (v : Unit9) (k : UnitKind)
    (u : Unit9) : NoProtocolEvents (es ++ [.fault (.parityError v k) u]) := by
  refine h.append fun f w hm => ?_
  obtain ⟨rfl, -⟩ := Event.fault.inj (List.mem_singleton.mp hm)
  rfl

theorem NoProtocolEvents.concat {es : List Event} (h : NoProtocolEvents es) {e : Event} (he : ∀ f u, e ≠ .fault f u) :
    NoProtocolEvents (es ++ [e]) :=
  h.append fun f u hm => absurd (List.mem_singleton.mp hm).symm (he f u)

theorem NoProtocolReports.concat_parityError {rs : List FaultReport} (h : NoProtocolReports rs) (v : Unit9)
    (k : UnitKind) (u : Unit9) : NoProtocolReports (rs ++ [⟨.parityError v k, u⟩]) := by
  intro r hm
  rcases List.mem_append.mp hm with hold | hnew
  · exact h r hold
  · rw [List.mem_singleton.mp hnew]
    rfl

/-! ### The Observer's events -/

/-- `Settle` reports at most the end of the transaction (44_pdi_codec.md R196). -/
theorem settle_noProtocol (c : Codec) : NoProtocolEvents c.settle.2 := by
  rcases settle_events c with h | h <;> rw [h]
  · exact nofun
  · exact NoProtocolEvents.concat (es := []) nofun nofun

theorem codec_writeSlot_noProtocol (c : Codec) (b : Byte) : NoProtocolEvents (c.writeSlot b).2 :=
  .append (es := [.pdiWrite b c.isNewCommand]) (.concat (es := []) nofun nofun) (settle_noProtocol _)

theorem codec_readSlot_noProtocol (c : Codec) (b : Byte) : NoProtocolEvents (c.readSlot b).2 :=
  .append (es := [.pdiRead b c.isNewCommand]) (.concat (es := []) nofun nofun) (settle_noProtocol _)

theorem acceptByte_observer_noProtocol {s : State} (he : NoProtocolEvents s.obs.events) (b : Byte) :
    NoProtocolEvents (acceptByte .observer b s).obs.events := by
  obtain ⟨o, x, y, w, n, heq⟩ := acceptByte_eq_acceptOpcode b
  rw [heq]
  exact he.concat nofun

/-- A running legal codec has an opcode to dispatch on, so its write slot counts (44_pdi_codec.md R201). -/
theorem writeSlot_observer_noProtocol {s : State} (he : NoProtocolEvents s.obs.events)
    (h : s.obs.pdi.opcode.toNat < 8) (u : Unit9) : NoProtocolEvents (writeSlot .observer u s).obs.events := by
  rw [writeSlot_observer, if_pos h]
  exact he.append (codec_writeSlot_noProtocol _ _)

theorem readSlot_observer_noProtocol {s : State} (he : NoProtocolEvents s.obs.events)
    (h : s.obs.pdi.opcode.toNat < 8) (u : Unit9) : NoProtocolEvents (readSlot .observer u s).obs.events := by
  rw [readSlot_observer, if_pos h]
  exact he.append (codec_readSlot_noProtocol _ _)

/-- The two units of a scan: a bad one takes a ParityError, a good one reaches a dispatch that finds its opcode. -/
theorem observeUnit_noProtocol {s : State} (he : NoProtocolEvents s.obs.events) (h : s.obs.pdi.Ok) (u v : Unit9) :
    NoProtocolEvents (observeUnit u v s).obs.events := by
  unfold observeUnit
  split_ifs with hidle
  · exact acceptByte_observer_noProtocol he _
  · exact he.concat_parityError u .opcode u
  · exact writeSlot_observer_noProtocol he (h.dispatch hidle) u
  · exact he.concat_parityError u .write u
  · exact readSlot_observer_noProtocol he (h.dispatch hidle) v
  · exact he.concat_parityError v .read v

theorem updateDR_observer_noProtocol {s : State} (he : NoProtocolEvents s.obs.events) (h : s.obs.pdi.Ok) :
    NoProtocolEvents (updateDR .observer s).obs.events := by
  have hcap : ∀ code, NoProtocolEvents (emitCaptured code s).obs.events := fun _ => he.concat nofun
  unfold updateDR
  split
  · exact (hcap 0x3).concat nofun
  · exact observeUnit_noProtocol (s := emitCaptured 0x7 s) (hcap 0x7) h _ _
  · exact (hcap 0xF).concat nofun
  · exact (hcap _).concat nofun

theorem entryAction_observer_noProtocol {s : State} (he : NoProtocolEvents s.obs.events) (h : s.obs.pdi.Ok)
    (n : TapState) : NoProtocolEvents (entryAction .observer n s).obs.events := by
  unfold entryAction
  split
  · exact he
  · exact he
  · exact updateDR_observer_noProtocol he h
  · exact he

theorem stateAction_observer_events (p : TapState) (tdi tdo : Bool) (s : State) :
    (stateAction .observer p tdi tdo s).obs.events = s.obs.events := by
  unfold stateAction
  split <;> rfl

theorem observerTap_noProtocol {s : State} (he : NoProtocolEvents s.obs.events) (h : s.obs.pdi.Ok) (p : TapState)
    (tms : Bool) (b : BusSample) : NoProtocolEvents (observerTap p tms b s).obs.events := by
  have hevents := stateAction_observer_events p b.tdi b.tdo s
  have hcodec := stateAction_codecOf .observer .observer p b.tdi b.tdo s
  rw [← hevents] at he
  have hentry := entryAction_observer_noProtocol
    (s := moveTap .observer (tapNext p tms) (stateAction .observer p b.tdi b.tdo s)) he
    ((congrArg Codec.Ok hcodec).mpr h) (tapNext p tms)
  exact hentry.concat nofun

/-! ### The Driver's reports -/

theorem headerEffect_faults (b : Byte) (s : State) : (headerEffect b s).drv.faults = s.drv.faults := by
  unfold headerEffect
  split_ifs <;> rfl

theorem hostRead_faults (s : State) : s.hostRead.drv.faults = s.drv.faults := by
  obtain ⟨o, l, h⟩ := hostRead_frame s
  rw [h]

theorem acceptByte_driver_faults (b : Byte) (s : State) : (acceptByte .driver b s).drv.faults = s.drv.faults := by
  obtain ⟨o, x, y, w, n, heq⟩ := acceptByte_eq_acceptOpcode b
  rw [heq]
  rfl

theorem loopTest_faults (s : State) : (loopTest s).drv.faults = s.drv.faults := by
  obtain ⟨a, h⟩ := loopTest_frame s
  rw [h]

theorem finishWrite_faults {s : State} (h : s.drv.pdi.opcode.toNat < 8) :
    (finishWrite s).drv.faults = s.drv.faults := by
  have hd : (handOver s).drv.pdi.opcode.toNat < 8 := h
  rw [finishWrite, loopTest_faults, writeSlot_driver, if_pos hd]
  rfl

/-- A read slot reports a ParityError or nothing (45_command_adapter.md R227). -/
theorem finishRead_noProtocol {s : State} (hf : NoProtocolReports s.drv.faults) (h : s.drv.pdi.opcode.toNat < 8) :
    NoProtocolReports (finishRead s).drv.faults := by
  have hd : (handOver s).drv.pdi.opcode.toNat < 8 := h
  by_cases hp : parityOk s.drv.pdiIn = true
  · rw [finishRead_of_good hp, loopTest_faults, readSlot_driver, if_pos hd]
    exact hf
  · rw [finishRead_of_bad hp]
    exact hf.concat_parityError s.drv.pdiIn .read s.drv.pdiIn

theorem startWrite_faults (s : State) : (startWrite s).drv.faults = s.drv.faults := by
  unfold startWrite
  split
  · rfl
  · exact hostRead_faults s

theorem nextSlotAction_faults (s : State) : (nextSlotAction s).drv.faults = s.drv.faults := by
  unfold nextSlotAction
  split
  · rfl
  · split
    · exact startWrite_faults s
    · rfl
    · rfl

/-- In a legal state a finished slot has its opcode still (10_state.md R30). -/
theorem adapterRun_noProtocol {s : State} (hf : NoProtocolReports s.drv.faults) (h : s.drv.Legal)
    (ha : s.drv.adState = .run) : NoProtocolReports (adapterRun s).drv.faults := by
  obtain ⟨-, -, hm⟩ := h.adapter
  rw [ha] at hm
  unfold adapterRun
  cases ht : s.drv.task <;> rw [ht] at hm
  case finishReset | finishIdCode | sentOpcode => exact hf
  case sentWrite =>
    obtain ⟨-, hn, -⟩ := hm
    exact (finishWrite_faults (h.codec.dispatch hn)).symm ▸ hf
  case sentRead =>
    obtain ⟨-, hn, -⟩ := hm
    exact finishRead_noProtocol hf (h.codec.dispatch hn)
  case none => exact (nextSlotAction_faults s).symm ▸ hf

/-! ### The step -/

/-- A step of a legal Driver reports no ProtocolError. -/
theorem step_driver_noProtocol {s t : State} (h : s.drv.Legal) (hf : NoProtocolReports s.drv.faults)
    (hs : s.obs.samples = []) (hst : step s = .next t) : NoProtocolReports t.drv.faults := by
  by_cases ho : s.drv.op = .none
  case neg => exact (step_hostUntouched hs ho hst).faults.symm ▸ hf
  rcases step_cases s with ⟨b, rest, hb, -⟩ | ⟨-, hk⟩
  · exact absurd (hs.symm.trans hb) nofun
  · rcases hk with ⟨hn, -⟩ | ⟨hn, -⟩ | ⟨-, -, -, hk⟩ | ⟨-, -, b, -, hk⟩ | ⟨-, -, b, -, hk⟩ | ⟨-, ha, hk⟩
    · exact absurd ho hn
    · exact absurd ho hn
    all_goals obtain rfl := Host.Outcome.next.inj (hk.symm.trans hst)
    · exact hf
    · exact ((headerEffect_faults b _).trans (hostRead_faults s)).symm ▸ hf
    · exact ((acceptByte_driver_faults b _).trans (hostRead_faults s)).symm ▸ hf
    · exact adapterRun_noProtocol hf h ha

/-- Settles O49: a sample concerns the Observer's events alone, any other step the Driver's reports. -/
theorem noStepReportsAProtocolError : Obligations.NoStepReportsAProtocolError := by
  intro s t hs hno hst
  rw [noProtocolError_iff] at hno ⊢
  obtain ⟨hdrv, hobs⟩ := (State.legal_iff s).mp hs
  obtain ⟨hf, he⟩ := hno
  cases hb : s.obs.samples with
  | cons b rest =>
    obtain rfl := Host.Outcome.next.inj ((step_sample hb).symm.trans hst)
    exact ⟨(observerTap_drv _ _ _ s).symm ▸ hf, observerTap_noProtocol he hobs _ _ _⟩
  | nil => exact ⟨step_driver_noProtocol hdrv hf hb hst, (step_obs_of_no_sample hb hst).symm ▸ he⟩

end Sys2Proof.Machine

/-! ## Slots, counters and the end of a transaction -/

namespace Sys2Proof.Machine

open Sys2Proof Sys2Proof.Spec

theorem nextSlot_of_write {c : Codec} (hw : 0 < c.writeRemaining) : c.nextSlot = .write := if_pos hw

theorem nextSlot_of_read {c : Codec} (hw : c.writeRemaining = 0) (hr : 0 < c.readRemaining) : c.nextSlot = .read :=
  (if_neg (Nat.not_lt.mpr hw.le)).trans (if_pos hr)

theorem nextSlot_of_none {c : Codec} (hw : c.writeRemaining = 0) (hr : c.readRemaining = 0) : c.nextSlot = .none :=
  (if_neg (Nat.not_lt.mpr hw.le)).trans (if_neg (Nat.not_lt.mpr hr.le))

/-- Settles O40: the two tests of `NextSlot`, in their order. -/
theorem writeSlotsComeBeforeReadSlots : Obligations.WriteSlotsComeBeforeReadSlots :=
  fun _ => ⟨nextSlot_of_write, nextSlot_of_read, nextSlot_of_none⟩

theorem settle_of_slot {c : Codec} (h : 0 < c.writeRemaining ∨ 0 < c.readRemaining) : c.settle = (c, []) := by
  rcases settle_cases c with ⟨-, he⟩ | ⟨hw, hr, -⟩ | ⟨hw, hr, -⟩
  · exact he
  all_goals omega

theorem settle_of_repeat {c : Codec} (hw : c.writeRemaining = 0) (hr : c.readRemaining = 0)
    (hop : c.opcode = 1 ∨ c.opcode = 3) (hn : c.repeatCount ≠ 0) : c.settle = (c.reload, []) := by
  rcases settle_cases c with ⟨hs, -⟩ | ⟨-, -, -, -, he⟩ | ⟨-, -, hlast, -⟩
  · omega
  · exact he
  · exact absurd ⟨hop, hn⟩ hlast

theorem settle_of_last {c : Codec} (hw : c.writeRemaining = 0) (hr : c.readRemaining = 0)
    (hlast : ¬ ((c.opcode = 1 ∨ c.opcode = 3) ∧ c.repeatCount ≠ 0)) :
    c.settle = (c.captureRepeat.finish, [.pdiDone c.opcode]) := by
  rcases settle_cases c with ⟨hs, -⟩ | ⟨-, -, hop, hn, -⟩ | ⟨-, -, -, he⟩
  · omega
  · exact absurd ⟨hop, hn⟩ hlast
  · exact he

theorem reload_of_ld {c : Codec} (h : c.opcode = 1) : c.reload =
    { c with repeatCount := c.repeatCount - 1, isNewCommand := false, readRemaining := c.sizeB } := by
  have h3 : c.opcode ≠ 3 := by rw [h]; decide
  rw [Codec.reload, if_pos h, if_neg h3]

theorem reload_of_st {c : Codec} (h : c.opcode = 3) : c.reload =
    { c with repeatCount := c.repeatCount - 1, isNewCommand := false, writeRemaining := c.sizeB } := by
  have h1 : c.opcode ≠ 1 := by rw [h]; decide
  rw [Codec.reload, if_neg h1, if_pos h]

/-- Settles O41: the three cases of `Settle`, the last one by whether a REPEAT ends. -/
theorem settleReloadsOrEnds : Obligations.SettleReloadsOrEnds := by
  refine fun c => ⟨settle_of_slot, fun hw hr => ⟨?ld, ?st, ?exhausted, ?rept, ?other⟩⟩
  case ld => intro h1 hn; rw [settle_of_repeat hw hr (.inl h1) hn, reload_of_ld h1]
  case st => intro h3 hn; rw [settle_of_repeat hw hr (.inr h3) hn, reload_of_st h3]
  case exhausted =>
    intro hop hn
    have h5 : c.opcode ≠ 5 := by rcases hop with h | h <;> rw [h] <;> decide
    rw [settle_of_last hw hr fun hlast => hlast.2 hn, captureRepeat_of_ne h5, Codec.finish]
  case rept =>
    intro h5
    rw [settle_of_last hw hr (by rw [h5]; rintro ⟨h | h, -⟩ <;> cases h), captureRepeat_of_eq h5, Codec.finish]
  case other =>
    intro h1 h3 h5
    rw [settle_of_last hw hr fun hlast => hlast.1.elim h1 h3, captureRepeat_of_ne h5, Codec.finish]

theorem countWrite_of_ne {c : Codec} (h : c.opcode ≠ 5) (b : Byte) :
    c.countWrite b = { c with writeRemaining := c.writeRemaining - 1 } := by
  rw [Codec.countWrite, if_neg h]

theorem countWrite_of_eq {c : Codec} (h : c.opcode = 5) (b : Byte) : c.countWrite b =
    { c with writeRemaining := c.writeRemaining - 1, repeatAcc := accumulate c.repeatAcc b } := by
  rw [Codec.countWrite, if_pos h]

/-- Settles O42: what a write slot counts depends on the opcode, what a read slot counts does not. -/
theorem slotsCountDownThenSettle : Obligations.SlotsCountDownThenSettle := by
  refine fun c b => ⟨fun h => ?write, fun h => ?rept, ?read⟩
  case write => rw [writeSlot_eq, countWrite_of_ne h]
  case rept => rw [writeSlot_eq, countWrite_of_eq h, accumulate]
  case read => exact readSlot_eq c b

end Sys2Proof.Machine

/-! ## The count table -/

namespace Sys2Proof.Machine

open Sys2Proof Sys2Proof.Spec

theorem decodeOpcode_word {i : Instr} (h : i.wf = true) (hf : (encode i).fmt = .pdiOpcode) :
    decodeOpcode (encode i).word = i := decodeOpcode_byteOf h hf

/-- Settles O45: each byte is read back as the row's own instruction. -/
theorem countTableRows : Obligations.CountTableRows := by
  intro x a b c u k r ha hb hc hu hk
  have hsizes : (sizeOk a && sizeOk b) = true := Bool.and_eq_true_iff.mpr ⟨ha, hb⟩
  have hrept : (decide (u ≤ 3) && sizeOk b) = true := Bool.and_eq_true_iff.mpr ⟨decide_eq_true hu, hb⟩
  refine ⟨?lds, ?ld, ?sts, ?st, ?ldcs, ?stcs, ?rept, ?key⟩
  case lds => rw [counts, decodeOpcode_word (i := .lds x a b) hsizes rfl]
  case ld => rw [counts, decodeOpcode_word (i := .ld x a b) hsizes rfl]
  case sts => rw [counts, decodeOpcode_word (i := .sts x a b) hsizes rfl]
  case st => rw [counts, decodeOpcode_word (i := .st x a b) hsizes rfl]
  case ldcs => rw [counts, decodeOpcode_word (i := .ldcs x c) (decide_eq_true hc) rfl]
  case stcs => rw [counts, decodeOpcode_word (i := .stcs x c) (decide_eq_true hc) rfl]
  case rept => rw [counts, decodeOpcode_word (i := .rept x u b) hrept rfl]
  case key => rw [counts, decodeOpcode_word (i := .key x k) (decide_eq_true hk) rfl]

end Sys2Proof.Machine

/-! ## Opcodes and slots of a Driver -/

namespace Sys2Proof.Machine

open Sys2Proof Sys2Proof.Spec

/-- Settles O21: both load the counts of their two sizes. -/
theorem driverAcceptsDirectOpcodes : Obligations.DriverAcceptsDirectOpcodes := by
  intro s x a b hs _ _
  rw [exec_lds, exec_sts, due_of_samples_nil hs, acceptLds, acceptSts, acceptOpcode_driver, acceptOpcode_driver]
  exact ⟨rfl, rfl⟩

/-- Settles O22: both load one iteration of `sizeB` slots. -/
theorem driverAcceptsPointerOpcodes : Obligations.DriverAcceptsPointerOpcodes := by
  intro s x m b hs _ _
  rw [exec_ld, exec_st, due_of_samples_nil hs, acceptLd, acceptSt, acceptOpcode_driver, acceptOpcode_driver]
  exact ⟨rfl, rfl⟩

/-- Inside `Run` the loop test moves the adapter, or leaves it, by the opcode register alone (45_command_adapter.md
R228). -/
theorem loopTest_of_run {s : State} (h : s.drv.adState = .run) : loopTest s =
    { s with drv := { s.drv with adState := if s.drv.pdi.opcode = 0xF then .awaitHeader else .run } } := by
  by_cases hi : s.drv.pdi.opcode = 0xF
  · rw [loopTest_of_idle hi, endCommand, if_pos hi]
  · rw [loopTest_of_running hi, if_neg hi, ← h]

theorem step_sentOpcode {s : State} (h : atRest s .run) (ht : s.drv.task = .sentOpcode) :
    step s = .next (handOver s) := by
  obtain ⟨hs, ho, ha, -⟩ := h
  rw [step_run hs ho ha, adapterRun, ht]

theorem step_sentWrite {s : State} (h : atRest s .run) (ht : s.drv.task = .sentWrite) :
    step s = .next (loopTest (writeSlot .driver s.drv.pdiOut (handOver s))) := by
  obtain ⟨hs, ho, ha, -⟩ := h
  rw [step_run hs ho ha, adapterRun, ht]
  rfl

theorem step_sentRead {s : State} (h : atRest s .run) (ht : s.drv.task = .sentRead) :
    step s = .next (finishRead s) := by
  obtain ⟨hs, ho, ha, -⟩ := h
  rw [step_run hs ho ha, adapterRun, ht]

/-- Settles O31: no action at the end of an outbound unit reads the unit that came back. -/
theorem finishedWriteSlotCounts : Obligations.FinishedWriteSlotCounts := by
  intro s h
  refine ⟨fun ht => step_sentOpcode h ht, fun ht hop => ?_⟩
  rw [step_sentWrite h ht, writeSlot_driver, if_pos (show (handOver s).drv.pdi.opcode.toNat < 8 from hop)]
  obtain ⟨-, -, hrun, -⟩ := h
  have ha : ((handOver s).setCodec .driver (s.drv.pdi.writeSlot (unitData s.drv.pdiOut)).1).drv.adState = .run := hrun
  exact congrArg Host.Outcome.next (loopTest_of_run ha)

/-- Settles O32: parity decides whether the unit reaches the codec at all. -/
theorem finishedReadSlotDeliversOrFaults : Obligations.FinishedReadSlotDeliversOrFaults := by
  intro s h ht
  rw [step_sentRead h ht]
  refine ⟨fun hgood hop => ?good, fun hbad => ?bad⟩
  case good =>
    obtain ⟨-, -, hrun, -⟩ := h
    have ha : (((handOver s).setCodec .driver (s.drv.pdi.readSlot (unitData s.drv.pdiIn)).1).hostWrite
        [unitData s.drv.pdiIn]).drv.adState = .run := hrun
    rw [finishRead_of_good hgood, readSlot_driver, if_pos (show (handOver s).drv.pdi.opcode.toNat < 8 from hop)]
    exact congrArg Host.Outcome.next (loopTest_of_run ha)
  case bad =>
    rw [finishRead_of_bad (ne_true_of_eq_false hbad), (takingAFaultAbortsAndReports _ _ _).1]
    rfl

/-- Settles O33: the codec that aborts is idle, so the loop test finds the command over. -/
theorem corruptOpcodeTakesProtocolError : Obligations.CorruptOpcodeTakesProtocolError := by
  intro s h hop hslot
  have hd : ¬ (handOver s).drv.pdi.opcode.toNat < 8 := Nat.not_lt.mpr hop
  rcases hslot with ht | ⟨ht, hgood⟩
  · rw [step_sentWrite h ht, writeSlot_driver, if_neg hd, loopTest_of_idle rfl, if_pos ht]
    rfl
  · have hne : s.drv.task ≠ .sentWrite := by rw [ht]; decide
    rw [step_sentRead h ht, finishRead_of_good hgood, readSlot_driver, if_neg hd, loopTest_of_idle rfl, if_neg hne]
    rfl

end Sys2Proof.Machine

/-! ## Whole transactions -/

namespace Sys2Proof.Machine

open Sys2Proof Sys2Proof.Spec

/-- Some bytes fed to `c` lead to `d` by `w` write slots and `r` read slots, whatever is fed after them. -/
def Feeds (bs : List Byte) (c d : Codec) (w r : Nat) : Prop :=
  ∀ cs, feed (bs ++ cs) c = ((feed cs d).1, (feed cs d).2.1 + w, (feed cs d).2.2 + r)

theorem Feeds.refl (c : Codec) : Feeds [] c c 0 0 := fun _ => rfl

theorem Feeds.trans {bs cs : List Byte} {c d e : Codec} {w r w' r' : Nat} (h : Feeds bs c d w r)
    (k : Feeds cs d e w' r') : Feeds (bs ++ cs) c e (w + w') (r + r') := by
  intro ds
  rw [List.append_assoc, h, k, Nat.add_assoc, Nat.add_assoc, Nat.add_comm w', Nat.add_comm r']

theorem feed_of_idle {c : Codec} (h : c.opcode = 0xF) (bs : List Byte) : feed bs c = (c, 0, 0) := by
  cases bs with
  | nil => rfl
  | cons b bs => rw [feed, if_pos h]

/-- Bytes after the end of a transaction count in no slot. -/
theorem Feeds.feed_eq {bs : List Byte} {c d : Codec} {w r : Nat} (h : Feeds bs c d w r) (hd : d.opcode = 0xF)
    (cs : List Byte) : feed (bs ++ cs) c = (d, w, r) := by
  rw [h, feed_of_idle hd, Nat.zero_add, Nat.zero_add]

/-! ### The slots of one iteration -/

theorem feeds_write {c : Codec} (hn : c.opcode ≠ 0xF) (hw : 0 < c.writeRemaining) (b : Byte) :
    Feeds [b] c (c.countWrite b).settle.1 1 0 := by
  intro cs
  rw [List.singleton_append, feed, if_neg hn, nextSlot_of_write hw]
  rfl

theorem feeds_read {c : Codec} (hn : c.opcode ≠ 0xF) (hw : c.writeRemaining = 0) (hr : 0 < c.readRemaining) (b : Byte) :
    Feeds [b] c c.countRead.settle.1 0 1 := by
  intro cs
  rw [List.singleton_append, feed, if_neg hn, nextSlot_of_read hw hr]
  rfl

/-- Write slots with a slot left after them only count (44_pdi_codec.md R193, R196). -/
theorem feeds_writes {ws : List Byte} {c : Codec} (hn : c.opcode ≠ 0xF) (hw : ws.length ≤ c.writeRemaining)
    (hs : ws.length < c.writeRemaining ∨ 0 < c.readRemaining) :
    Feeds ws c (ws.foldl Codec.countWrite c) ws.length 0 := by
  induction ws generalizing c with
  | nil => exact .refl c
  | cons b ws ih =>
    rw [List.length_cons] at hw hs
    have hleft : (c.countWrite b).writeRemaining = c.writeRemaining - 1 := rfl
    have hslot : 0 < (c.countWrite b).writeRemaining ∨ 0 < (c.countWrite b).readRemaining := by
      rw [hleft]
      exact hs.imp_left (by omega)
    have hfirst := feeds_write hn (by omega) b
    rw [settle_of_slot hslot] at hfirst
    rw [List.length_cons, Nat.add_comm]
    exact hfirst.trans (ih (c := c.countWrite b) hn (by omega) (hs.imp_left (by omega)))

/-- The read slots of an iteration, the last of which settles (44_pdi_codec.md R194, R196). -/
theorem feeds_reads (b : Byte) {rs : List Byte} {c : Codec} (hn : c.opcode ≠ 0xF) (hw : c.writeRemaining = 0)
    (hr : c.readRemaining = rs.length + 1) :
    Feeds (b :: rs) c ({ c with readRemaining := 0 } : Codec).settle.1 0 (rs.length + 1) := by
  have hfirst := feeds_read hn hw (by omega) b
  induction rs generalizing b c with
  | nil => rwa [Codec.countRead, hr] at hfirst
  | cons b' rs ih =>
    have hleft : c.countRead.readRemaining = rs.length + 1 := by rw [Codec.countRead, hr]; rfl
    rw [settle_of_slot (.inr (by omega))] at hfirst
    rw [List.length_cons, Nat.add_comm]
    exact hfirst.trans (ih b' (c := c.countRead) hn hw hleft (feeds_read (c := c.countRead) hn hw (by omega) b'))

/-- The codec once the slots of an iteration are counted, before the last of them settles. -/
def Codec.drained (ws : List Byte) (c : Codec) : Codec :=
  { c with writeRemaining := 0, readRemaining := 0,
           repeatAcc := if c.opcode = 5 then ws.foldl accumulate c.repeatAcc else c.repeatAcc }

theorem foldl_countWrite (ws : List Byte) (c : Codec) : ws.foldl Codec.countWrite c =
    { c with writeRemaining := c.writeRemaining - ws.length,
             repeatAcc := if c.opcode = 5 then ws.foldl accumulate c.repeatAcc else c.repeatAcc } := by
  induction ws generalizing c with
  | nil => rw [List.foldl_nil, List.foldl_nil, ite_self]; rfl
  | cons b ws ih =>
    rw [List.foldl_cons, ih, List.foldl_cons, List.length_cons]
    by_cases h : c.opcode = 5
    · rw [countWrite_of_eq h]; simp only [if_pos h, Nat.sub_sub, Nat.add_comm]
    · rw [countWrite_of_ne h]; simp only [if_neg h, Nat.sub_sub, Nat.add_comm]

theorem foldl_countWrite_drained {ws : List Byte} {c : Codec} (hw : c.writeRemaining = ws.length) :
    ({ ws.foldl Codec.countWrite c with readRemaining := 0 } : Codec) = c.drained ws := by
  rw [foldl_countWrite, hw, Nat.sub_self, Codec.drained]

theorem foldl_countWrite_eq_drained {ws : List Byte} {c : Codec} (hw : c.writeRemaining = ws.length)
    (hr : c.readRemaining = 0) : ws.foldl Codec.countWrite c = c.drained ws := by
  rw [foldl_countWrite, hw, Nat.sub_self, Codec.drained, hr]

/-- An iteration has the slots its counters hold, the write slots first; then it settles. -/
theorem feeds_writes_reads {ws rs : List Byte} {c : Codec} (hn : c.opcode ≠ 0xF) (hw : c.writeRemaining = ws.length)
    (hr : c.readRemaining = rs.length) (hs : 0 < ws.length ∨ 0 < rs.length) :
    Feeds (ws ++ rs) c (c.drained ws).settle.1 ws.length rs.length := by
  have hkept : ∀ l : List Byte, (l.foldl Codec.countWrite c).opcode = c.opcode := fun l => by rw [foldl_countWrite]
  cases rs with
  | cons b rs =>
    have hwrites := feeds_writes hn hw.ge (.inr (hr ▸ Nat.zero_lt_succ _))
    have hreads := feeds_reads b (rs := rs) (c := ws.foldl Codec.countWrite c) ((hkept ws).symm ▸ hn)
      (by rw [foldl_countWrite, hw]; exact Nat.sub_self _) (by rw [foldl_countWrite]; exact hr)
    rw [foldl_countWrite_drained hw] at hreads
    have hboth := hwrites.trans hreads
    rwa [Nat.add_zero, Nat.zero_add] at hboth
  | nil =>
    obtain rfl | ⟨ws, b, rfl⟩ := List.eq_nil_or_concat' ws
    · exact absurd hs (by decide)
    have hcount : c.writeRemaining = ws.length + 1 := by rw [hw, List.length_append]; rfl
    have hwrites := feeds_writes (ws := ws) hn (by omega) (.inl (by omega))
    have hone : (ws.foldl Codec.countWrite c).writeRemaining = 1 := by
      rw [foldl_countWrite, hcount]
      exact Nat.add_sub_cancel_left ..
    have hlast := feeds_write ((hkept ws).symm ▸ hn) (hone ▸ Nat.one_pos) b
    have hdrained : (ws.foldl Codec.countWrite c).countWrite b = c.drained (ws ++ [b]) := by
      rw [← foldl_countWrite_eq_drained hw hr, List.foldl_append]
      rfl
    rw [hdrained] at hlast
    rw [List.append_nil, List.length_append]
    exact hwrites.trans hlast

theorem feeds_iteration {bs : List Byte} {c : Codec} (hn : c.opcode ≠ 0xF) (hs : 0 < bs.length)
    (hlen : bs.length = c.writeRemaining + c.readRemaining) :
    Feeds bs c (c.drained (bs.take c.writeRemaining)).settle.1 c.writeRemaining c.readRemaining := by
  have hw : c.writeRemaining = (bs.take c.writeRemaining).length := by rw [List.length_take]; omega
  have hr : c.readRemaining = (bs.drop c.writeRemaining).length := by rw [List.length_drop]; omega
  have h := feeds_writes_reads hn hw hr (by omega)
  rwa [List.take_append_drop, ← hw, ← hr] at h

/-- A transaction of one iteration ends where its slots end (44_pdi_codec.md R196). -/
theorem feeds_single {bs : List Byte} {c : Codec} (hn : c.opcode ≠ 0xF) (hrep : ¬ (c.opcode = 1 ∨ c.opcode = 3))
    (hs : 0 < bs.length) (hlen : bs.length = c.writeRemaining + c.readRemaining) :
    Feeds bs c (c.drained (bs.take c.writeRemaining)).captureRepeat.finish c.writeRemaining c.readRemaining := by
  have h := feeds_iteration hn hs hlen
  rwa [settle_of_last (c := c.drained _) rfl rfl fun hlast => hrep hlast.1] at h

/-! ### The iterations of LD and ST -/

/-- A codec before an iteration of LD or ST: its counters hold one load (44_pdi_codec.md R185, R187). -/
structure Codec.StartsIteration (c : Codec) : Prop where
  opcode : c.opcode = 1 ∨ c.opcode = 3
  writes : c.writeRemaining = if c.opcode = 3 then c.sizeB else 0
  reads : c.readRemaining = if c.opcode = 1 then c.sizeB else 0
  sizeB : 0 < c.sizeB

theorem Codec.StartsIteration.slots_pos {c : Codec} (h : c.StartsIteration) :
    0 < c.writeRemaining + c.readRemaining := by
  have hpos := h.sizeB
  rw [h.writes, h.reads]
  rcases h.opcode with h1 | h3
  · rw [if_pos h1]; omega
  · rw [if_pos h3]; omega

theorem Codec.StartsIteration.ne_idle {c : Codec} (h : c.StartsIteration) : c.opcode ≠ 0xF := by
  rcases h.opcode with h | h <;> rw [h] <;> decide

theorem Codec.StartsIteration.ne_rept {c : Codec} (h : c.StartsIteration) : c.opcode ≠ 5 := by
  rcases h.opcode with h | h <;> rw [h] <;> decide

/-- The codec before the next iteration: the count is one less, the tag cleared (44_pdi_codec.md R196). -/
def Codec.repeated (c : Codec) : Codec := { c with repeatCount := c.repeatCount - 1, isNewCommand := false }

/-- The reload restores the counters an iteration has used up. -/
theorem Codec.StartsIteration.reload_drained {c : Codec} (h : c.StartsIteration) (ws : List Byte) :
    (c.drained ws).reload = c.repeated := by
  simp only [Codec.reload, Codec.drained, Codec.repeated, ← h.writes, ← h.reads, if_neg h.ne_rept]

theorem Codec.StartsIteration.repeated {c : Codec} (h : c.StartsIteration) : c.repeated.StartsIteration :=
  ⟨h.opcode, h.writes, h.reads, h.sizeB⟩

/-- From the start of an iteration there is one for each pending count and one more (44_pdi_codec.md R207). -/
theorem Codec.StartsIteration.feeds {n : Nat} {c : Codec} {bs : List Byte} (h : c.StartsIteration)
    (hn : c.repeatCount.toNat = n) (hlen : bs.length = (c.writeRemaining + c.readRemaining) * (n + 1)) :
    ∃ d, Feeds bs c d (c.writeRemaining * (n + 1)) (c.readRemaining * (n + 1)) ∧ d.opcode = 0xF ∧
      d.repeatCount = 0 := by
  have hpos := h.slots_pos
  induction n generalizing c bs with
  | zero =>
    have hzero : c.repeatCount = 0 := BitVec.eq_of_toNat_eq hn
    rw [Nat.mul_one] at hlen
    have hfeeds := feeds_iteration h.ne_idle (by omega) hlen
    rw [settle_of_last (c := c.drained _) rfl rfl fun hlast => hlast.2 hzero,
      captureRepeat_of_ne (c := c.drained _) h.ne_rept] at hfeeds
    rw [Nat.mul_one, Nat.mul_one]
    exact ⟨_, hfeeds, rfl, hzero⟩
  | succ n ih =>
    have hne : c.repeatCount ≠ 0 := by rintro h0; rw [h0] at hn; exact absurd hn nofun
    have hless : (c.repeatCount - 1).toNat = n := by bv_omega
    rw [Nat.mul_succ] at hlen
    have hfirst := feeds_iteration (bs := bs.take (c.writeRemaining + c.readRemaining)) h.ne_idle
      (by rw [List.length_take]; omega) (by rw [List.length_take]; omega)
    rw [settle_of_repeat (c := c.drained _) rfl rfl h.opcode hne, h.reload_drained] at hfirst
    obtain ⟨d, hrest, hidle, hcount⟩ := ih (bs := bs.drop (c.writeRemaining + c.readRemaining)) h.repeated hless
      (by rw [List.length_drop]; exact Nat.sub_eq_of_eq_add hlen) hpos
    have hall := hfirst.trans hrest
    rw [List.take_append_drop, Nat.add_comm, Nat.add_comm c.readRemaining] at hall
    exact ⟨d, hall, hidle, hcount⟩

/-! ### What a byte loads -/

/-- What `Accept` of a byte writes into a codec, against the count table (44_pdi_codec.md R182 to R191). -/
structure Loads (b : Byte) (o : BitVec 4) (y w n : Nat) : Prop where
  field : o.toNat = opField b
  sizeB : 0 < y ∧ y ≤ 4
  slots : 0 < w + n
  iteration : o = 1 ∨ o = 3 → w = (if o = 3 then y else 0) ∧ n = if o = 1 then y else 0
  operand : o = 5 → w = y
  counts : ∀ r, counts b r = if o = 1 ∨ o = 3 then (w * (r + 1), n * (r + 1)) else (w, n)

theorem Loads.of_single {b : Byte} {o : BitVec 4} {y w n : Nat} (hfield : o.toNat = opField b) (hB : 0 < y ∧ y ≤ 4)
    (hs : 0 < w + n) (hrep : ¬ (o = 1 ∨ o = 3)) (hrept : o = 5 → w = y) (hc : ∀ r, Machine.counts b r = (w, n)) :
    Loads b o y w n :=
  ⟨hfield, hB, hs, fun h => absurd h hrep, hrept, fun r => (hc r).trans (if_neg hrep).symm⟩

/-- Every byte loads what the count table says, for one iteration where the table multiplies. -/
theorem exists_loads (b : Byte) : ∃ (o : BitVec 4) (x y w n : Nat), Loads b o y w n ∧
    ∀ s, (acceptByte .driver b s).drv.pdi = s.drv.pdi.accept o x y w n := by
  obtain ⟨hA, -⟩ := (sizeOk_iff _).mp (sizeOk_sizeAOf b)
  have hB := (sizeOk_iff _).mp (sizeOk_sizeBOf b)
  have hM := (sizeOk_iff _).mp (sizeOk_sizeBOfLow (csAddrOf b))
  have hd : decodeOpcode b = _ := decodeOpcode.eq_def b
  split at hd
  case h_1 hk =>
    refine ⟨0, _, _, sizeAOf b, sizeBOf b, ?_, fun s => by rw [acceptByte, hd]; rfl⟩
    exact .of_single hk.symm hB (by omega) (by decide) nofun fun r => by rw [counts, hd]
  case h_2 hk =>
    refine ⟨1, _, sizeBOf b, 0, sizeBOf b, ?_, fun s => by rw [acceptByte, hd]; rfl⟩
    exact ⟨hk.symm, hB, by omega, fun _ => ⟨rfl, rfl⟩, nofun, fun r => by rw [counts, hd, Nat.zero_mul]; rfl⟩
  case h_3 hk =>
    refine ⟨2, _, _, sizeAOf b + sizeBOf b, 0, ?_, fun s => by rw [acceptByte, hd]; rfl⟩
    exact .of_single hk.symm hB (by omega) (by decide) nofun fun r => by rw [counts, hd]
  case h_4 hk =>
    refine ⟨3, _, sizeBOf b, sizeBOf b, 0, ?_, fun s => by rw [acceptByte, hd]; rfl⟩
    exact ⟨hk.symm, hB, by omega, fun _ => ⟨rfl, rfl⟩, nofun, fun r => by rw [counts, hd, Nat.zero_mul]; rfl⟩
  case h_5 hk =>
    refine ⟨4, _, _, 0, 1, ?_, fun s => by rw [acceptByte, hd]; rfl⟩
    exact .of_single hk.symm hM (by omega) (by decide) nofun fun r => by rw [counts, hd]
  case h_6 hk =>
    refine ⟨5, _, _, sizeBOf b, 0, ?_, fun s => by rw [acceptByte, hd]; rfl⟩
    exact .of_single hk.symm hB (by omega) (by decide) (fun _ => rfl) fun r => by rw [counts, hd]
  case h_7 hk =>
    refine ⟨6, _, _, 1, 0, ?_, fun s => by rw [acceptByte, hd]; rfl⟩
    exact .of_single hk.symm hM (by omega) (by decide) nofun fun r => by rw [counts, hd]
  case h_8 h0 h1 h2 h3 h4 h5 h6 =>
    have hlt := opField_lt b
    simp only [imp_false] at h0 h1 h2 h3 h4 h5 h6
    have hk : opField b = 7 := by omega
    refine ⟨7, _, _, 8, 0, ?_, fun s => by rw [acceptByte, hd]; rfl⟩
    exact .of_single hk.symm hM (by omega) (by decide) nofun fun r => by rw [counts, hd]

theorem Loads.opcode_of_field {b : Byte} {o k : BitVec 4} {y w n : Nat} (h : Loads b o y w n)
    (hk : opField b = k.toNat) : o = k := BitVec.eq_of_toNat_eq (h.field.trans hk)

/-! ### From the accept to the end -/

/-- The first bytes of a REPEAT are its count, the first of them the least significant (44_pdi_codec.md R197). -/
theorem byterev_take_accumulate_toNat {bs : List Byte} {n : Nat} (hn : n ≤ bs.length) (h4 : n ≤ 4) :
    (byterev n ((bs.take n).foldl accumulate 0)).toNat = leValue (bs.take n) := by
  have hlen := List.length_take_of_le hn
  have h := byterev_foldl_accumulate_toNat (bs := bs.take n) (hlen.trans_le h4)
  rwa [hlen] at h

/-- A whole transaction: the slots of the table, and what becomes of the repeat count (44_pdi_codec.md R197, R207). -/
theorem Loads.feeds {b : Byte} {o : BitVec 4} {x y w n u v : Nat} (h : Loads b o y w n) {c : Codec} {bs : List Byte}
    (hc : Machine.counts b c.repeatCount.toNat = (u, v)) (hlen : bs.length = u + v) :
    ∃ d, Feeds bs (c.accept o x y w n) d u v ∧ d.opcode = 0xF ∧ d.repeatCount.toNat =
      if o = 1 ∨ o = 3 then 0 else if o = 5 then leValue (bs.take u) else c.repeatCount.toNat := by
  have hidle : o ≠ 0xF := Codec.opcode_ne_idle (h.field ▸ opField_lt b)
  obtain ⟨hy, hy4⟩ := h.sizeB
  rw [h.counts] at hc
  by_cases hrep : o = 1 ∨ o = 3
  · rw [if_pos hrep] at hc ⊢
    obtain ⟨rfl, rfl⟩ := Prod.mk.inj hc
    obtain ⟨hw, hn⟩ := h.iteration hrep
    have hstart : (c.accept o x y w n).StartsIteration := ⟨hrep, hw, hn, hy⟩
    obtain ⟨d, hfeeds, hd, hcount⟩ := hstart.feeds rfl (hlen.trans (Nat.add_mul ..).symm)
    exact ⟨d, hfeeds, hd, congrArg BitVec.toNat hcount⟩
  · rw [if_neg hrep] at hc ⊢
    obtain ⟨rfl, rfl⟩ := Prod.mk.inj hc
    have hfeeds : Feeds bs (c.accept o x y w n) ((c.accept o x y w n).drained (bs.take w)).captureRepeat.finish w n :=
      feeds_single (c := c.accept o x y w n) hidle hrep (hlen ▸ h.slots) hlen
    have hop : ((c.accept o x y w n).drained (bs.take w)).opcode = o := rfl
    refine ⟨_, hfeeds, rfl, ?_⟩
    by_cases hrept : o = 5
    · rw [if_pos hrept, captureRepeat_of_eq (hop.trans hrept)]
      obtain rfl := hrept
      obtain rfl := h.operand rfl
      exact byterev_take_accumulate_toNat (by omega) hy4
    · rw [if_neg hrept, captureRepeat_of_ne (hop.symm ▸ hrept)]
      rfl

/-- Settles O44: the slots of the loads, iteration by iteration; the opcode is the byte's opcode field. -/
theorem transactionTotalsMatchTheCountTable : Obligations.TransactionTotalsMatchTheCountTable := by
  intro s t byte bs w r hs _ hexec hcounts hlen
  obtain ⟨o, x, y, m, n, hloads, haccept⟩ := exists_loads byte
  obtain rfl := Host.Outcome.next.inj ((exec_decodeOpcode byte s).symm.trans hexec)
  obtain ⟨d, hfeeds, hd, hcount⟩ := hloads.feeds (x := x) hcounts (List.length_take_of_le hlen)
  have hfeed := hfeeds.feed_eq hd (bs.drop (w + r))
  rw [List.take_append_drop] at hfeed
  rw [List.take_take, Nat.min_eq_left (Nat.le_add_right w r)] at hcount
  rw [due_of_samples_nil hs, haccept, hfeed, hcount]
  refine ⟨rfl, hd, ?_⟩
  symm
  split
  case h_1 hk => rw [if_pos (.inl (hloads.opcode_of_field hk))]
  case h_2 hk => rw [if_pos (.inr (hloads.opcode_of_field hk))]
  case h_3 hk =>
    have h5 : o = 5 := hloads.opcode_of_field hk
    have hrep : ¬ (o = 1 ∨ o = 3) := by rw [h5]; decide
    rw [if_neg hrep, if_pos h5]
  case h_4 h1 h3 h5 =>
    have hne (k : BitVec 4) (hk : opField byte ≠ k.toNat) : o ≠ k := fun ho => hk (ho ▸ hloads.field.symm)
    rw [if_neg (not_or.mpr ⟨hne 1 h1, hne 3 h3⟩), if_neg (hne 5 h5)]

end Sys2Proof.Machine

/-! # Proofs about the command adapter (45_command_adapter.md)

O29: the three waits for a host byte. -/

/-! ## Waiting for the host -/

namespace Sys2Proof.Machine

open Sys2Proof Sys2Proof.Spec

/-- Outside `Run` the adapter at rest wants a byte before anything else (45_command_adapter.md R221). -/
theorem step_of_atRest_of_hostIn_nil {s : State} {a : AdapterState} (h : atRest s a) (ha : a ≠ .run)
    (hin : s.drv.hostIn = []) : step s = .next s := by
  obtain ⟨hs, ho, rfl, hb⟩ := h
  have hempty : s.hostRead.drv.inBuf = none := by rw [hostRead_of_empty hin, hb]
  exact step_waits hs ho ha hempty

/-- Settles O29: before a header and an opcode the adapter itself waits, inside `Run` the write slot does. -/
theorem adapterWaitsForTheHost : Obligations.AdapterWaitsForTheHost := by
  intro s hin
  refine ⟨fun h => step_of_atRest_of_hostIn_nil h (by decide) hin,
    fun h => step_of_atRest_of_hostIn_nil h (by decide) hin, ?writeSlot⟩
  case writeSlot =>
    intro ⟨hs, ho, ha, hb⟩ ht hn hw
    rw [step_run hs ho ha, adapterRun_of_loop ht, nextSlotAction_of_write hn hw, startWrite_of_empty hb hin]

end Sys2Proof.Machine
